-- ==== Sys2Proof/Word.lean ====
section
/-! DEFINITION. The word types of the GTB-4840: bytes, register words, host addresses, gantry times, ids and the
numbers of tracks, stations, units, contexts, slots and rows (spec/00_scope.md, "Conventions"). -/

namespace Sys2Proof

/-- A byte of host memory or of a frame. -/
abbrev Byte := BitVec 8
/-- A 32-bit register of the register window (09, 9.1). -/
abbrev Word := BitVec 32
/-- A 64-bit address in host memory (00, "Shared memory"). -/
abbrev Addr := BitVec 64
/-- A gantry time: a 48-bit count of microseconds (00, "Gantry time"; R205). -/
abbrev Time := BitVec 48
/-- A passage id; 0 stands for a test run (00, "Passage ids"). -/
abbrev PassageId := BitVec 16

abbrev TrackId := Fin 4
abbrev StationId := Fin 8
abbrev UnitId := Fin 6
abbrev ContextId := Fin 8
abbrev ProgramId := Fin 16
abbrev StepId := Fin 32
abbrev SlotId := Fin 16
abbrev RowId := Fin 512

end Sys2Proof
end

