-- ==== Sys2Proof/Syntax.lean ====
section
/-! DEFINITION. The commands of the part: one constructor for each row of spec/opcode_table.json, with the operands
its rule names. Every command carries a `Moment` (log 1). -/

namespace Sys2Proof

/-- The four wheel sensors of a track (01, introduction). -/
inductive Sensor where
  | uOuter | uInner | dInner | dOuter
deriving DecidableEq, Repr

/-- The two wheel-sensor pairs of a track (01, introduction). -/
inductive Pair where
  | u | d
deriving DecidableEq, Repr

/-- The registers whose writes are ignored (R173). -/
inductive ReadOnlyRegister where
  | ident | status | notice
deriving DecidableEq, Repr

/-- A frame as it arrives at a port (R122): tag, width, height, pixel depth, pixel data, the two bytes of a 16-bit pixel
low byte first (DESIGN CHOICE, log 38). -/
structure Frame where
  tag    : Byte
  width  : Nat
  height : Nat
  depth  : Nat
  data   : List Byte
deriving DecidableEq, Repr

/-- What surrounds the taking of a command (DESIGN CHOICE, log 1): the gantry time at which it is taken ("now",
00 "Gantry time"); the bytes the host has written to its own memory since the command before; the addresses whose
read, or write, the bus answers with an error while the command is taken. -/
structure Moment where
  now         : Time
  hostWrites  : List Host.Cell
  readErrors  : List Nat
  writeErrors : List Nat
deriving DecidableEq, Repr

/-- The commands, in the order of spec/opcode_table.json. -/
inductive Instr where
  /-- POWER_ON (R203); `selfCheck`: the self check passes (log 9). -/
  | powerOn (m : Moment) (selfCheck : Bool)
  /-- LINK_RESET (R203). -/
  | linkReset (m : Moment) (selfCheck : Bool)
  /-- CONTROL_NONE (R176): action NONE or an undefined action code. -/
  | controlNone (m : Moment) (enables : BitVec 5) (code : BitVec 3)
  /-- CONTROL_LOOK (R176, R179, R146, R164). -/
  | controlLook (m : Moment) (enables : BitVec 5)
  /-- CONTROL_START (R199). -/
  | controlStart (m : Moment) (enables : BitVec 5)
  /-- CONTROL_STOP (R200). -/
  | controlStop (m : Moment) (enables : BitVec 5)
  /-- CONTROL_SOFT_RESET (R204); `selfCheck`: a repeated self check passes (log 9). -/
  | controlSoftReset (m : Moment) (enables : BitVec 5) (selfCheck : Bool)
  /-- EXCHANGE_BASE_LOW_WRITE (R174). -/
  | exchangeBaseLowWrite (m : Moment) (value : Word)
  /-- EXCHANGE_BASE_HIGH_WRITE (R174). -/
  | exchangeBaseHighWrite (m : Moment) (value : Word)
  /-- CAUSE_WRITE (R211). -/
  | causeWrite (m : Moment) (value : Word)
  /-- NOTICE_READ (R167). -/
  | noticeRead (m : Moment)
  /-- REGISTER_WRITE_IGNORED (R173). -/
  | registerWriteIgnored (m : Moment) (register : ReadOnlyRegister) (value : Word)
  /-- ASSERTING_EDGE (R4). -/
  | assertingEdge (m : Moment) (track : TrackId) (sensor : Sensor)
  /-- RELEASING_EDGE (R4). -/
  | releasingEdge (m : Moment) (track : TrackId) (sensor : Sensor)
  /-- BOUNCE_TIMER_EXPIRY (R4). -/
  | bounceTimerExpiry (m : Moment) (track : TrackId) (sensor : Sensor)
  /-- SETTLE_TIMER_EXPIRY (R1). -/
  | settleTimerExpiry (m : Moment) (track : TrackId)
  /-- IGNORE_TIMER_EXPIRY (R3). -/
  | ignoreTimerExpiry (m : Moment) (track : TrackId)
  /-- AXLE_ENTRY_EXPIRY (R10): the entry at the head of the pair's queue. -/
  | axleEntryExpiry (m : Moment) (track : TrackId) (pair : Pair)
  /-- SCAN_MESSAGE (R13): the states of the 24 beams, 1 for lit. -/
  | scanMessage (m : Moment) (track : TrackId) (beams : BitVec 24)
  /-- STUCK_TIMER_EXPIRY (R16). -/
  | stuckTimerExpiry (m : Moment) (track : TrackId)
  /-- CURTAIN_SILENCE_EXPIRY (R17). -/
  | curtainSilenceExpiry (m : Moment) (track : TrackId)
  /-- TAIL_TIMER_EXPIRY (R36) of the passage in a context. -/
  | tailTimerExpiry (m : Moment) (context : ContextId)
  /-- DUE_TIMER_EXPIRY (R62). -/
  | dueTimerExpiry (m : Moment)
  /-- READY_ANSWER (R73). -/
  | readyAnswer (m : Moment) (station : StationId)
  /-- REST_TIMER_EXPIRY (R72). -/
  | restTimerExpiry (m : Moment) (station : StationId)
  /-- WAKE_LIMIT_EXPIRY (R74). -/
  | wakeLimitExpiry (m : Moment) (station : StationId)
  /-- EXPOSURE_END (R82). -/
  | exposureEnd (m : Moment) (station : StationId)
  /-- PAUSE_END (R83). -/
  | pauseEnd (m : Moment) (station : StationId)
  /-- AWAIT_TIMER_EXPIRY (R87). -/
  | awaitTimerExpiry (m : Moment) (station : StationId)
  /-- STROBE_READY (R100). -/
  | strobeReady (m : Moment) (unit : UnitId)
  /-- RECHARGE_TIMER_EXPIRY (R101). -/
  | rechargeTimerExpiry (m : Moment) (unit : UnitId)
  /-- PULSE_END (R109). -/
  | pulseEnd (m : Moment) (unit : UnitId)
  /-- FLASH_DEADLINE (R110): of the first waiting request whose deadline has come (log 23). -/
  | flashDeadline (m : Moment)
  /-- FRAME_ARRIVAL (R122). -/
  | frameArrival (m : Moment) (station : StationId) (frame : Frame)
  /-- FRAME_TIMER_EXPIRY (R123) of the awaited entry of an exposure number. -/
  | frameTimerExpiry (m : Moment) (station : StationId) (number : Nat)
  /-- TAKE_READ_COMPLETION (R139): the 32 bytes as read, or none for a bus error (log 7). -/
  | takeReadCompletion (m : Moment) (card : Option (List Byte))
  /-- MARKING_COMPLETION (R140). -/
  | markingCompletion (m : Moment)
  /-- WRITE_COMPLETION (R141). -/
  | writeCompletion (m : Moment)
  /-- WRITE_BUS_ERROR (R143): `landed` bytes were written before the failing write (log 8). -/
  | writeBusError (m : Moment) (landed : Nat)
  /-- FOLLOW_READ_COMPLETION (R142): the next field as read, or none for a bus error. -/
  | followReadCompletion (m : Moment) (next : Option Addr)
  /-- PROBE_READ_COMPLETION (R146): the owner byte as read, or none for a bus error. -/
  | probeReadCompletion (m : Moment) (owner : Option Byte)
  /-- LOAD_PLAN (R183). -/
  | loadPlan (m : Moment) (slot : SlotId) (address : Addr)
  /-- PLAN_READ_COMPLETION (R183): the 872 bytes as read, or none for a bus error. -/
  | planReadCompletion (m : Moment) (plan : Option (List Byte))
  /-- LOAD_PROGRAMS (R69). -/
  | loadPrograms (m : Moment) (slot : SlotId) (mask : BitVec 16) (address : Addr)
  /-- PROGRAM_TABLE_READ_COMPLETION (R185): the 4,096 bytes as read, or none for a bus error. -/
  | programTableReadCompletion (m : Moment) (table : Option (List Byte))
  /-- OPEN_TRACK (R1, R186). -/
  | openTrack (m : Moment) (slot : SlotId) (track : Byte)
  /-- CLOSE_TRACK_NOW (R2, R186). -/
  | closeTrackNow (m : Moment) (slot : SlotId) (track : Byte)
  /-- CLOSE_TRACK_AFTER (R2, R187). -/
  | closeTrackAfter (m : Moment) (slot : SlotId) (track : Byte)
  /-- ABANDON_PASSAGE (R39, R188). -/
  | abandonPassage (m : Moment) (slot : SlotId) (id : PassageId)
  /-- TEST_SHOT (R64, R190). -/
  | testShot (m : Moment) (slot : SlotId) (station program : Byte) (speed : Word)
  /-- GIVE_CHAIN (R147, R191). -/
  | giveChain (m : Moment) (slot : SlotId) (head : Addr)
  /-- WITHDRAW_CARDS (R148, R192). -/
  | withdrawCards (m : Moment) (slot : SlotId) (count : Byte) (address : Addr)
  /-- ADDRESS_LIST_READ_COMPLETION (R192): the addresses as read, or none for a bus error. -/
  | addressListReadCompletion (m : Moment) (addresses : Option (List Addr))
  /-- DRAIN (R151, R189). -/
  | drain (m : Moment) (slot : SlotId)
  /-- SNAPSHOT (R193). -/
  | snapshot (m : Moment) (slot : SlotId)
  /-- SET_REST with action REST (R76, R194). -/
  | setRestRest (m : Moment) (slot : SlotId) (mask : Byte)
  /-- SET_REST with action WAKE (R76, R194). -/
  | setRestWake (m : Moment) (slot : SlotId) (mask : Byte)
  /-- GANTRY_TIME_WRAP (R205). -/
  | gantryTimeWrap (m : Moment)
deriving DecidableEq, Repr

end Sys2Proof
end

