-- ==== Sys2Proof/Config.lean ====
section
/-! DEFINITION. What one part fixes and the manual does not say, and the free values: opaque constants without a body. -/

namespace Sys2Proof

/-- The revision in IDENT bits 7-0 and in the identity block (09, 9.1; 11.2). The manual states no number
(DESIGN CHOICE, log 10). -/
opaque Config.revision : Byte
/-- Free bits, read at the free counter: the state byte of a row whose state byte write failed may hold either value
(R160; log 11). -/
opaque Config.freeBit : Nat → Bool
/-- Free numbers, read at the free counter: how much of a card write had landed when a reset or the entry into FAILED
stopped it (R154, R155; log 8), and which of the expiries that have come is taken first (log 2). -/
opaque Config.freeNat : Nat → Nat

end Sys2Proof
end

