-- ==== Sys2Proof/Machine/State.lean ====
section
/-! DEFINITION. The state of the part: every piece of state spec/ names, block by block, as plain data, and
`State.reset`, the part right after a power-on whose self check passed (R203). A timer is the gantry time of its expiry,
or none when stopped. -/

namespace Sys2Proof.Machine

open Sys2Proof

/-! ## Track input units (01) -/

inductive Direction where
  | up | down
deriving DecidableEq, Repr

/-- Track state (1.1). -/
inductive TrackState where
  | closed | settling | watching | ignoring | closing
deriving DecidableEq, Repr

/-- Wheel filter state (R4). -/
inductive FilterState where
  | quiet | confirming | on | recovering
deriving DecidableEq, Repr

/-- A wheel filter (R4): its state, the level of its line (a pin), the noted edge time, the bounce timer. -/
structure WheelFilter where
  state    : FilterState
  asserted : Bool
  edgeTime : Time
  bounce   : Option Time
deriving DecidableEq, Repr

/-- The served passage (R5). -/
structure Served where
  id  : PassageId
  dir : Direction
deriving DecidableEq, Repr

inductive DetectorState where
  | clear | object
deriving DecidableEq, Repr

/-- The curtain side of a track input unit (R14-R18). -/
structure Curtain where
  detector     : DetectorState
  lit          : Nat
  dark         : Nat
  enter        : Option Time
  leave        : Option Time
  topBeam      : Nat
  stuckTimer   : Option Time
  silenceTimer : Option Time
  blind        : Bool
  darkRunStart : Option Time
deriving DecidableEq, Repr

/-- A track's plan entry (11.10). `bounce` is the bounce time in force: 200 us where the plan gives the default. -/
structure TrackPlan where
  enabled     : Bool
  roofLine    : Nat
  contact     : Nat
  settleScans : Nat
  uSpacing    : Nat
  dSpacing    : Nat
  bounce      : Nat
  settleMs    : Nat
  stuckS      : Nat
  silenceS    : Nat
  tail        : Nat
deriving DecidableEq, Repr

/-- A track input unit. -/
structure TrackUnit where
  plan        : TrackPlan
  state       : TrackState
  settleTimer : Option Time
  ignoreTimer : Option Time
  uOuter      : WheelFilter
  uInner      : WheelFilter
  dInner      : WheelFilter
  dOuter      : WheelFilter
  served      : Option Served
  uQueue      : List Time
  dQueue      : List Time
  curtain     : Curtain
deriving DecidableEq, Repr

/-! ## Passages (02) -/

inductive PassageState where
  | measuring | running | finishing
deriving DecidableEq, Repr

inductive CloseReason where
  | cleared | stalled | abandoned | trackClosed
deriving DecidableEq, Repr

inductive TailKind where
  | tail | silence
deriving DecidableEq, Repr

structure TailTimer where
  kind   : TailKind
  expiry : Time
deriving DecidableEq, Repr

inductive HeadClass where
  | raised | lowered
deriving DecidableEq, Repr

inductive SightingState where
  | untimed | planned | accounted
deriving DecidableEq, Repr

/-- An entry of a sightings list (2.4). -/
structure Sighting where
  number       : Option Nat
  enter        : Time
  leave        : Time
  topBeam      : Nat
  headClass    : Option HeadClass
  speed        : Option Nat
  state        : SightingState
  openRequests : Nat
deriving DecidableEq, Repr

/-- A context that is not FREE (R21). -/
structure Passage where
  id          : PassageId
  track       : TrackId
  dir         : Direction
  state       : PassageState
  openTime    : Time
  lastPulse   : Time
  estimate    : Option Nat
  minSpeed    : Option Nat
  maxSpeed    : Option Nat
  axles       : Nat
  sightings   : List Sighting
  overflow    : Nat
  roofItems   : Nat
  unpaired    : Nat
  implausible : Nat
  outstanding : Nat
  tail        : Option TailTimer
  close       : Option CloseReason
deriving DecidableEq, Repr

/-! ## Shot planner (03) -/

inductive MissReason where
  | late | offline | notPlanned | busy | waking | stalled | abandoned
deriving DecidableEq, Repr

/-- A shot request (R48). -/
structure Request where
  pid       : PassageId
  sighting  : Nat
  station   : StationId
  program   : ProgramId
  due       : Time
  tolerance : Nat
  testSpeed : Option Nat
deriving DecidableEq, Repr

/-! ## Shot programs and stations (04) -/

inductive PauseForm where
  | time | distance
deriving DecidableEq, Repr

/-- A step of a shot program (4.1). `loop` is REPEAT. -/
inductive Step where
  | expose (length intensity : Nat) (mask : BitVec 6) (wait : Nat)
  | pause (form : PauseForm) (amount : Nat)
  | loop (target : StepId) (count : Nat)
  | mark (mask : Byte)
  | await (mask : Byte) (timeout : Nat)
  | finish
deriving DecidableEq, Repr

abbrev Program := Vector Step 32

/-- A station's plan entry (11.10). `frameTimeout` is the timeout in force: 50 ms where the plan gives the default. -/
structure StationPlan where
  track        : TrackId
  servesUp     : Bool
  servesDown   : Bool
  programUp    : Option ProgramId
  programDown  : Option ProgramId
  offset       : Int
  lead         : Nat
  tolerance    : Nat
  strobeMask   : BitVec 6
  sensitive    : Bool
  cropLeft     : Nat
  cropWidth    : Nat
  cropHeight   : Nat
  testRow      : Nat
  restS        : Nat
  wakeMs       : Nat
  frameTimeout : Nat
  heights      : List Nat
deriving DecidableEq, Repr

inductive StationState where
  | offline | resting | waking | idle | running | ending
deriving DecidableEq, Repr

inductive TileOutcome where
  | pending | tiled | dropped | timedOut | mismatched | failed
deriving DecidableEq, Repr

/-- An exposure entry (R82, R89, R94). Entry n of the list is exposure number n. -/
structure Exposure where
  start      : Time
  length     : Nat
  unit       : Option UnitId
  tag        : Byte
  dark       : Bool
  glared     : Bool
  clipped    : Bool
  truncated  : Bool
  received   : Bool
  outcome    : TileOutcome
  card       : Option Addr
  tileLength : Option Nat
deriving DecidableEq, Repr

/-- The step wait (R78) with the instant it waits for. -/
inductive StepWait where
  | none
  | flash
  | exposure (finish : Time)
  | pause (finish : Time)
  | await (expiry : Time)
deriving DecidableEq, Repr

inductive RunOutcome where
  | done | faulted | abandoned
deriving DecidableEq, Repr

/-- The run context (R78). -/
structure Run where
  pid       : PassageId
  sighting  : Nat
  program   : ProgramId
  due       : Time
  start     : Time
  track     : TrackId
  dir       : Option Direction
  headClass : Option HeadClass
  topBeam   : Option Nat
  speed     : Nat
  testSpeed : Option Nat
  index     : StepId
  loop      : Option (StepId × Nat)
  exposures : List Exposure
  wait      : StepWait
  outcome   : RunOutcome
  unsynced  : Bool
deriving DecidableEq, Repr

/-- An entry of a received-mark set (R85). -/
structure Mark where
  sender : StationId
  pid    : PassageId
deriving DecidableEq, Repr

/-- A station runner (4.2, 4.3, 4.4). -/
structure Station where
  plan      : Option StationPlan
  state     : StationState
  restTimer : Option Time
  wakeTimer : Option Time
  run       : Option Run
  marks     : List Mark
deriving DecidableEq, Repr

/-! ## Strobe arbiter (05) -/

inductive UnitState where
  | out | resting | charging | ready | firing
deriving DecidableEq, Repr

/-- A strobe unit's record (R98) with its fire line and its charging supply. -/
structure StrobeUnit where
  state         : UnitState
  litTracks     : BitVec 4
  rechargeMs    : Nat
  reach         : BitVec 4
  users         : BitVec 8
  rechargeTimer : Option Time
  firing        : Option StationId
  pulseEnd      : Option Time
  fireLine      : Bool
  supply        : Bool
deriving DecidableEq, Repr

/-- A flash request in the waiting list (R105). -/
structure FlashRequest where
  station   : StationId
  number    : Nat
  mask      : BitVec 6
  usable    : BitVec 6
  intensity : Nat
  length    : Nat
  deadline  : Time
deriving DecidableEq, Repr

/-- An open exposure in the register (R112). -/
structure OpenExposure where
  number : Nat
  start  : Time
  finish : Time
deriving DecidableEq, Repr

/-- An exposure of a closed-out run that is still open when the next run of its station begins one: it stays open to its
end (R112, log 22). -/
structure Lingering where
  station : StationId
  finish  : Time
deriving DecidableEq, Repr

/-! ## Camera ports (06) -/

/-- The phase of an awaited entry (R118); WAITING carries the frame timer. -/
inductive AwaitedPhase where
  | opened
  | waiting (expiry : Time)
deriving DecidableEq, Repr

structure Awaited where
  number : Nat
  tag    : Byte
  phase  : AwaitedPhase
deriving DecidableEq, Repr

structure Port where
  configured : Bool
  nextTag    : Byte
  awaited    : List Awaited
  silent     : Nat
deriving DecidableEq, Repr

/-! ## Tile mover (07) -/

/-- A tile (R128, R129): its bytes begin with the 16-byte header; its length is their number. -/
structure Tile where
  station  : StationId
  number   : Nat
  pid      : PassageId
  sighting : Nat
  clipped  : Bool
  bytes    : List Byte
deriving DecidableEq, Repr

inductive ChainCondition where
  | ok | dry | held
deriving DecidableEq, Repr

inductive Cursor where
  | absent
  | at (address : Addr)
  | after (address : Addr)
deriving DecidableEq, Repr

inductive HoldReason where
  | cardCheck | cardEmpty | cardWrite
deriving DecidableEq, Repr

inductive Phase where
  | idle | taking | writing | marking | following | probing
deriving DecidableEq, Repr

/-- The current card (R137). -/
structure CurrentCard where
  address  : Addr
  capacity : Nat
  buffer   : Addr
  tile     : Tile
deriving DecidableEq, Repr

/-- The card being marked and its next field as the take read it (R140). -/
structure MarkedCard where
  address : Addr
  next    : Addr
deriving DecidableEq, Repr

/-- The tile mover (R137). `abandoned`: the reads that a GIVE CHAIN abandoned and that have not completed, oldest first,
by their phase (R147, log 7). -/
structure TileMover where
  queue        : List Tile
  condition    : ChainCondition
  cursor       : Cursor
  hold         : Option HoldReason
  phase        : Phase
  current      : Option CurrentCard
  marked       : Option MarkedCard
  pendingHead  : Option Addr
  lookPending  : Bool
  withdrawn    : List Addr
  drainContext : Option Addr
  abandoned    : List Phase
deriving DecidableEq, Repr

/-! ## Causes and records (08, 10) -/

/-- The causes of 10.3. -/
inductive CauseCode where
  | unrouted | doubleFault | wheelUnpaired | axleOverrun | speedImplausible | curtainBlind | sightingOverflow
  | passageRefused | passageStalled | scheduleFull | shotMissed | runFault | awaitTimeout | flashDenied | strobeSilent
  | frameTimeout | frameMismatch | cameraSilent | tileDropped | chainDry | cardCheck | cardEmpty | cardWrite | logFull
  | recordLost | noticeOverflow | rowWrite | exchangeRead
deriving DecidableEq, Repr

inductive CauseClass where
  | note | stop | hold | fatal
deriving DecidableEq, Repr

/-- A cause as a block hands it to the fault unit (R206). -/
structure Cause where
  code    : CauseCode
  track   : Option TrackId
  station : Option StationId
  unit    : Option UnitId
  pid     : Option PassageId
  detail  : Option (BitVec 64)
deriving DecidableEq, Repr

inductive CaptureOutcome where
  | done
  | missed (reason : MissReason)
  | abandoned
  | faulted
deriving DecidableEq, Repr

/-- A capture record (R53, R94). -/
structure CaptureRecord where
  pid       : PassageId
  sighting  : Nat
  station   : StationId
  track     : TrackId
  dir       : Option Direction
  headClass : Option HeadClass
  topBeam   : Option Nat
  speed     : Option Nat
  due       : Time
  start     : Option Time
  outcome   : CaptureOutcome
  unsynced  : Bool
  exposures : List Exposure
deriving DecidableEq, Repr

/-- A passage record (R43). -/
structure PassageRecord where
  id          : PassageId
  track       : TrackId
  dir         : Direction
  openTime    : Time
  lastPulse   : Time
  axles       : Nat
  minSpeed    : Option Nat
  maxSpeed    : Option Nat
  sightings   : Nat
  untimed     : Nat
  overflow    : Nat
  roofItems   : Nat
  unpaired    : Nat
  implausible : Nat
  close       : Option CloseReason
deriving DecidableEq, Repr

/-- A fault note (R209). -/
structure FaultNote where
  code     : CauseCode
  cls      : CauseClass
  original : Option CauseCode
  time     : Time
  track    : Option TrackId
  station  : Option StationId
  unit     : Option UnitId
  pid      : Option PassageId
  detail   : Option (BitVec 64)
deriving DecidableEq, Repr

/-- A record on its way to the result log (R156). A snapshot is held as its four bodies, as assembled (R169). -/
inductive Record where
  | capture (r : CaptureRecord)
  | passage (r : PassageRecord)
  | faultNote (r : FaultNote)
  | snapshot (part1 part2 part3 part4 : List Byte)
deriving DecidableEq, Repr

structure ReportWriter where
  rowCursor : RowId
  sequence  : BitVec 32
  held      : List Record
  lost      : Nat
  notices   : List RowId
  overflow  : Bool
deriving DecidableEq, Repr

/-! ## Order engine (09) -/

/-- An order as the engine reads it from a slot (11.3). -/
inductive Order where
  | badKind
  | loadPlan (address : Addr)
  | loadPrograms (mask : BitVec 16) (address : Addr)
  | openTrack (track : Byte)
  | closeTrack (track mode : Byte)
  | giveChain (head : Addr)
  | withdrawCards (count : Byte) (address : Addr)
  | drain
  | abandonPassage (id : PassageId)
  | testShot (station program : Byte) (speed : Word)
  | snapshot
  | setRest (mask action : Byte)
deriving DecidableEq, Repr

/-- The order the scan waits on (R177): one that reads host memory. -/
inductive LongRead where
  | plan (address : Addr)
  | programs (mask : BitVec 16) (address : Addr)
  | addresses (count : Nat) (address : Addr)
deriving DecidableEq, Repr

/-- What a parked order waits for (R177). -/
inductive ParkedFor where
  | track (t : TrackId)
  | station (st : StationId)
  | drain
deriving DecidableEq, Repr

structure Parked where
  slot  : SlotId
  waits : ParkedFor
deriving DecidableEq, Repr

structure OrderEngine where
  scan      : Option SlotId
  executing : Option (SlotId × LongRead)
  lookAgain : Bool
  parked    : List Parked
deriving DecidableEq, Repr

/-! ## Fault unit (10) -/

inductive DeviceState where
  | dormant | ready | watching | stopping | failed
deriving DecidableEq, Repr

inductive FailReason where
  | none | selfCheck | doubleFault | fatalCause
deriving DecidableEq, Repr

/-- An entry of the routing table (R207). -/
structure Routing where
  note   : Bool
  signal : Bool
deriving DecidableEq, Repr

/-- The latched CAUSE bits (R211). -/
structure Latches where
  orders : Bool
  dry    : Bool
  fault  : Bool
  failed : Bool
deriving DecidableEq, Repr

/-! ## The model's own -/

/-- What leaves the part besides the levels of its lines, oldest first (log 28). -/
inductive Output where
  | msi
  | registerRead (value : Word)
  | hostWrite (address : Addr) (bytes : List Byte)
  | hostRead (address : Addr) (length : Nat)
  | standby (st : StationId)
  | wake (st : StationId)
  | trigger (st : StationId) (tag : Byte) (length : Nat)
deriving DecidableEq, Repr

/-- A notice between blocks that is handled within the event (log 13). -/
inductive Task where
  | step (st : StationId)
  | deliver (receiver : StationId) (mark : Mark)
  | closeOut (st : StationId)
  | offer (st : StationId)
deriving DecidableEq, Repr

/-- Host memory: bytes at addresses, strictly rising, none equal to what an unlisted address reads as. -/
abbrev Memory := List Host.Cell

/-- What an address that nothing has written reads as (DESIGN CHOICE, unsafe, log 5). -/
def Memory.blank : Byte := 0

/-- The state of the part. -/
structure State where
  gantryTime    : Time
  tracks        : Vector TrackUnit 4
  passages      : Vector (Option Passage) 8
  nextPassageId : PassageId
  headMin       : Nat
  headMax       : Nat
  schedule      : List Request
  dueTimer      : Option Time
  programs      : Vector (Option Program) 16
  stations      : Vector Station 8
  units         : Vector StrobeUnit 6
  waiting       : List FlashRequest
  openExposures : Vector (Option OpenExposure) 8
  lingering     : List Lingering
  ports         : Vector Port 8
  mover         : TileMover
  writer        : ReportWriter
  engine        : OrderEngine
  base          : Addr
  stagedLow     : BitVec 20
  enables       : BitVec 5
  device        : DeviceState
  failReason    : FailReason
  routingLimit  : Nat
  routing       : List Routing
  latches       : Latches
  mem           : Memory
  readErrors    : List Nat
  writeErrors   : List Nat
  outputs       : List Output
  freeCount     : Nat
  undone        : List Task
  pending       : List Instr
deriving DecidableEq, Repr

/-! ## Reset values -/

/-- A wheel filter after a reset (R20); edge time and line level: DESIGN CHOICE, log 17. -/
def WheelFilter.reset : WheelFilter := { state := .quiet, asserted := false, edgeTime := 0, bounce := none }

/-- A curtain detector after a reset (R20); top beam: DESIGN CHOICE, log 17. -/
def Curtain.reset : Curtain :=
  { detector := .clear, lit := 0, dark := 0, enter := none, leave := none, topBeam := 0, stuckTimer := none,
    silenceTimer := none, blind := false, darkRunStart := none }

/-- An emptied plan entry (R20); the values: DESIGN CHOICE, log 17. -/
def TrackPlan.empty : TrackPlan :=
  { enabled := false, roofLine := 0, contact := 0, settleScans := 0, uSpacing := 0, dSpacing := 0, bounce := 0,
    settleMs := 0, stuckS := 0, silenceS := 0, tail := 0 }

/-- A track input unit after a reset (R20). -/
def TrackUnit.reset : TrackUnit :=
  { plan := .empty, state := .closed, settleTimer := none, ignoreTimer := none, uOuter := .reset, uInner := .reset,
    dInner := .reset, dOuter := .reset, served := none, uQueue := [], dQueue := [], curtain := .reset }

/-- A station after a reset (R71, R97). -/
def Station.reset : Station :=
  { plan := none, state := .offline, restTimer := none, wakeTimer := none, run := none, marks := [] }

/-- A strobe unit after a reset (R117). -/
def StrobeUnit.reset : StrobeUnit :=
  { state := .out, litTracks := 0, rechargeMs := 0, reach := 0, users := 0, rechargeTimer := none, firing := none,
    pulseEnd := none, fireLine := false, supply := false }

/-- A camera port after a reset (R134). -/
def Port.reset : Port := { configured := false, nextTag := 0, awaited := [], silent := 0 }

/-- The tile mover after a reset (R155). -/
def TileMover.reset : TileMover :=
  { queue := [], condition := .dry, cursor := .absent, hold := none, phase := .idle, current := none, marked := none,
    pendingHead := none, lookPending := false, withdrawn := [], drainContext := none, abandoned := [] }

/-- The report writer after a reset (R172). -/
def ReportWriter.reset : ReportWriter :=
  { rowCursor := 0, sequence := 0, held := [], lost := 0, notices := [], overflow := false }

/-- The order engine after a reset (R197). -/
def OrderEngine.reset : OrderEngine := { scan := none, executing := none, lookAgain := false, parked := [] }

/-- The latched CAUSE bits after a reset (R211). -/
def Latches.clear : Latches := { orders := false, dry := false, fault := false, failed := false }

/-- The part right after a power-on whose self check passed (R203, R213): DORMANT, every block in its reset state. -/
def State.reset : State :=
  { gantryTime := 0, tracks := Vector.replicate 4 .reset, passages := Vector.replicate 8 none, nextPassageId := 1,
    headMin := 0, headMax := 0, schedule := [], dueTimer := none, programs := Vector.replicate 16 none,
    stations := Vector.replicate 8 .reset, units := Vector.replicate 6 .reset, waiting := [],
    openExposures := Vector.replicate 8 none, lingering := [], ports := Vector.replicate 8 .reset, mover := .reset,
    writer := .reset,
    engine := .reset, base := 0, stagedLow := 0, enables := 0, device := .dormant, failReason := .none,
    routingLimit := 2, routing := [], latches := .clear, mem := [], readErrors := [], writeErrors := [], outputs := [],
    freeCount := 0, undone := [], pending := [] }

/-! ## Stops -/

/-- The faults of the model: none. Every command of the table has an effect the manual gives in every state, so no
command ends in a fault. -/
inductive Fault
deriving DecidableEq, Repr

/-- The refusals of the model. -/
inductive Refusal where
  /-- Raised by an arm of exec whose command has no meaning yet. Safe. -/
  | notModelled (mnemonic : String)
deriving DecidableEq, Repr

end Sys2Proof.Machine
end

