-- ==== Sys2Proof/Machine/Ops.lean ====
section
/-! DEFINITION. The named operations shared by every block: host memory and the bus, times, the update of one piece of
state, outputs, free values, and the Moment at which a command is taken. -/

namespace Sys2Proof.Machine

open Sys2Proof

/-! ## Host memory and the bus -/

/-- The byte at an address. -/
def Memory.read : Memory → Nat → Byte
  | [], _ => Memory.blank
  | c :: rest, a => if c.1 = a then c.2 else Memory.read rest a

/-- Writing one byte. Writing what an unlisted address reads as removes the entry. -/
def Memory.write : Memory → Nat → Byte → Memory
  | [], a, b => if b = Memory.blank then [] else [(a, b)]
  | c :: rest, a, b =>
    if a < c.1 then (if b = Memory.blank then c :: rest else (a, b) :: c :: rest)
    else if a = c.1 then (if b = Memory.blank then rest else (a, b) :: rest)
    else c :: Memory.write rest a b

/-- Every entry lies at or above `lo`, addresses strictly rise, and no entry equals what an unlisted address reads as. -/
def Memory.wfFrom (lo : Nat) : Memory → Bool
  | [] => true
  | c :: rest => decide (lo ≤ c.1) && !decide (c.2 = Memory.blank) && Memory.wfFrom (c.1 + 1) rest

/-- The canonical form of host memory. -/
def Memory.wf (m : Memory) : Bool := Memory.wfFrom 0 m

/-- The host's own writes, in order (log 1). -/
def Memory.writeCells (m : Memory) (cells : List Host.Cell) : Memory :=
  cells.foldl (fun m c => Memory.write m c.1 c.2) m

/-- Bytes written from an address upward, up to the first address the bus answers with an error; the number of bytes
that landed (log 21). Addresses wrap at 64 bits (log 26). -/
def Memory.writeUntilError (errors : List Nat) : Memory → Addr → List Byte → Memory × Nat
  | m, _, [] => (m, 0)
  | m, a, b :: bs =>
    if errors.contains a.toNat then (m, 0)
    else
      let r := Memory.writeUntilError errors (Memory.write m a.toNat b) (a + 1) bs
      (r.1, r.2 + 1)

/-- The address `n` bytes above `a`. -/
def offsetAddr (a : Addr) (n : Nat) : Addr := a + BitVec.ofNat 64 n

/-- The bus answers a read of `n` bytes at `a` with an error. -/
def busReadFails (a : Addr) (n : Nat) (s : State) : Bool :=
  (List.range n).any fun i => s.readErrors.contains (offsetAddr a i).toNat

/-- The `n` bytes at `a`, lowest address first. -/
def busRead (a : Addr) (n : Nat) (s : State) : List Byte :=
  (List.range n).map fun i => Memory.read s.mem (offsetAddr a i).toNat

/-- A message or access leaves the part. -/
def emit (o : Output) (s : State) : State := { s with outputs := s.outputs ++ [o] }

/-- A bus write of consecutive bytes; the flag says whether all of them landed. -/
def busWrite (a : Addr) (bytes : List Byte) (s : State) : State × Bool :=
  let r := Memory.writeUntilError s.writeErrors s.mem a bytes
  (emit (.hostWrite a (bytes.take r.2)) { s with mem := r.1 }, r.2 == bytes.length)

/-! ## Bytes and bit fields -/

/-- A number as `n` little-endian bytes (00, "Shared memory"). -/
def le (n x : Nat) : List Byte := (List.range n).map fun i => BitVec.ofNat 8 (x / 256 ^ i)

/-- The number `n` little-endian bytes stand for, from position `at` of a list. -/
def leAt (bytes : List Byte) (pos : Nat) : Nat → Nat
  | 0 => 0
  | n + 1 => (bytes.getD pos 0).toNat + 256 * leAt bytes (pos + 1) n

/-- A byte list filled with 0 up to `n` bytes (R217). -/
def padTo (n : Nat) (bytes : List Byte) : List Byte := bytes ++ List.replicate (n - bytes.length) 0

/-- The sum of bytes mod 256 (R214). -/
def byteSum (bytes : List Byte) : Byte := bytes.foldl (· + ·) 0

/-- A number as one byte. -/
def byteOf (n : Nat) : Byte := BitVec.ofNat 8 n

def boolNat (b : Bool) : Nat := if b then 1 else 0

/-! ## Times -/

/-- The gantry time `us` microseconds after `t` (log 4). -/
def plusUs (t : Time) (us : Nat) : Time := t + BitVec.ofNat 48 us

/-- The gantry time `now` has reached `t`: it lies less than half the range of the count after it, across the wrap of
the count (R205) where the wrap lies between (log 4). -/
def reached (t now : Time) : Bool := decide ((now - t).toNat < 2 ^ 47)

/-- The gantry time `t` lies before `u` (log 4). -/
def earlier (t u : Time) : Bool := !reached u t

/-- How many microseconds `u` lies after `t`, across the wrap of the count where it lies between; 0 where `u` lies before
`t` (log 4). -/
def elapsed (t u : Time) : Nat := if reached t u then (u - t).toNat else 0

/-- A running timer has expired at `now` (log 3). -/
def expired (timer : Option Time) (now : Time) : Bool :=
  match timer with
  | none => false
  | some t => reached t now

def secondsUs (s : Nat) : Nat := s * 1000000
def millisUs (ms : Nat) : Nat := ms * 1000

/-- A count from 0 to 65,535 that stays at 65,535 (R21, R162). -/
def saturate (n : Nat) : Nat := min n 65535

/-! ## The sets of like things -/

def allTracks : List TrackId := [0, 1, 2, 3]
def allStations : List StationId := [0, 1, 2, 3, 4, 5, 6, 7]
def allUnits : List UnitId := [0, 1, 2, 3, 4, 5]
def allContexts : List ContextId := [0, 1, 2, 3, 4, 5, 6, 7]
def allSensors : List Sensor := [.uOuter, .uInner, .dInner, .dOuter]

/-! ## Updates of one piece of state -/

def modTrack (t : TrackId) (f : TrackUnit → TrackUnit) (s : State) : State :=
  { s with tracks := s.tracks.set t (f s.tracks[t]) }

def modCurtain (t : TrackId) (f : Curtain → Curtain) (s : State) : State :=
  modTrack t (fun u => { u with curtain := f u.curtain }) s

def setPassage (k : ContextId) (p : Option Passage) (s : State) : State :=
  { s with passages := s.passages.set k p }

/-- An update of the passage in a context; a FREE context stays FREE. -/
def modPassage (k : ContextId) (f : Passage → Passage) (s : State) : State :=
  setPassage k (s.passages[k].map f) s

def modStation (st : StationId) (f : Station → Station) (s : State) : State :=
  { s with stations := s.stations.set st (f s.stations[st]) }

/-- An update of the run a station holds; a station without one stays without one. -/
def modRun (st : StationId) (f : Run → Run) (s : State) : State :=
  modStation st (fun x => { x with run := x.run.map f }) s

def modUnit (u : UnitId) (f : StrobeUnit → StrobeUnit) (s : State) : State :=
  { s with units := s.units.set u (f s.units[u]) }

def modPort (st : StationId) (f : Port → Port) (s : State) : State :=
  { s with ports := s.ports.set st (f s.ports[st]) }

def setOpenExposure (st : StationId) (e : Option OpenExposure) (s : State) : State :=
  { s with openExposures := s.openExposures.set st e }

def modMover (f : TileMover → TileMover) (s : State) : State := { s with mover := f s.mover }

def modWriter (f : ReportWriter → ReportWriter) (s : State) : State := { s with writer := f s.writer }

def modEngine (f : OrderEngine → OrderEngine) (s : State) : State := { s with engine := f s.engine }

/-- The wheel filter of a sensor. -/
def TrackUnit.filter (u : TrackUnit) : Sensor → WheelFilter
  | .uOuter => u.uOuter
  | .uInner => u.uInner
  | .dInner => u.dInner
  | .dOuter => u.dOuter

def TrackUnit.modFilter (u : TrackUnit) (f : WheelFilter → WheelFilter) : Sensor → TrackUnit
  | .uOuter => { u with uOuter := f u.uOuter }
  | .uInner => { u with uInner := f u.uInner }
  | .dInner => { u with dInner := f u.dInner }
  | .dOuter => { u with dOuter := f u.dOuter }

def modFilter (t : TrackId) (w : Sensor) (f : WheelFilter → WheelFilter) (s : State) : State :=
  modTrack t (fun u => u.modFilter f w) s

/-! ## Lookups -/

/-- The context that holds a passage id. -/
def contextOf (id : PassageId) (s : State) : Option ContextId :=
  allContexts.find? fun k => match s.passages[k] with | none => false | some p => p.id == id

/-- The passage that holds an id. -/
def passageOf (id : PassageId) (s : State) : Option Passage :=
  (contextOf id s).bind fun k => s.passages[k]

/-- The track of a station's plan entry; T0 for a station without one, which takes no request (log 27). -/
def stationTrack (st : StationId) (s : State) : TrackId :=
  match s.stations[st].plan with
  | none => 0
  | some p => p.track

/-- Some context of the track is not FREE. -/
def trackHasPassage (t : TrackId) (s : State) : Bool :=
  allContexts.any fun k => match s.passages[k] with | none => false | some p => p.track == t

/-! ## Free values -/

/-- A fresh free bit; the counter advances (log 11). -/
def takeFreeBit (s : State) : Bool × State := (Config.freeBit s.freeCount, { s with freeCount := s.freeCount + 1 })

/-- A fresh free number; the counter advances (log 2, log 8). -/
def takeFreeNat (s : State) : Nat × State := (Config.freeNat s.freeCount, { s with freeCount := s.freeCount + 1 })

/-! ## Taking a command -/

/-- A command is taken at its Moment (log 1): the host's writes stand in memory, the gantry time is the command's (it
never runs backward, log 4), the bus errors are those of the Moment. -/
def arrive (m : Moment) (s : State) : State :=
  { s with
    gantryTime := if s.gantryTime.toNat ≤ m.now.toNat then m.now else s.gantryTime
    mem := Memory.writeCells s.mem m.hostWrites
    readErrors := m.readErrors
    writeErrors := m.writeErrors }

end Sys2Proof.Machine
end

