-- ==== Sys2Proof/Machine/Flags.lean ====
section
/-! DEFINITION. The flags the host sees: the CAUSE register and its latches, the interrupt condition and its messages
(R211, R212), and the words the registers of the window read as (9.1, R173). -/

namespace Sys2Proof.Machine

open Sys2Proof

/-- CAUSE.ROWS shows the notice queue holding a row number (R168). -/
def rowsBit (s : State) : Bool := !s.writer.notices.isEmpty

/-- The five CAUSE bits, bit 0 first (9.1, R211). -/
def causeBits (s : State) : BitVec 5 :=
  BitVec.ofNat 5 (boolNat (rowsBit s) + 2 * boolNat s.latches.orders + 4 * boolNat s.latches.dry +
    8 * boolNat s.latches.fault + 16 * boolNat s.latches.failed)

/-- The interrupt condition: a CAUSE bit set with its enable set (R212). -/
def irqCondition (s : State) : Bool := causeBits s &&& s.enables != 0

/-- A change after which one MSI is sent if the interrupt condition passed from not holding to holding (R212). -/
def withIrq (f : State → State) (s : State) : State :=
  if !irqCondition s && irqCondition (f s) then emit .msi (f s) else f s

def latchOrders : State → State := withIrq fun s => { s with latches := { s.latches with orders := true } }
def latchDry : State → State := withIrq fun s => { s with latches := { s.latches with dry := true } }
def latchFault : State → State := withIrq fun s => { s with latches := { s.latches with fault := true } }
def latchFailed : State → State := withIrq fun s => { s with latches := { s.latches with failed := true } }

/-- A CONTROL write sets the enables (R176, R212). -/
def setEnables (enables : BitVec 5) : State → State := withIrq fun s => { s with enables := enables }

/-- A latched bit after a write to CAUSE: cleared where 1 is written (R211). -/
def clearedBy (value : Word) (bit : Nat) (latched : Bool) : Bool := latched && !value.getLsbD bit

/-- The latches after a write to CAUSE (R211); the 1 written to ROWS clears nothing. -/
def clearLatches (value : Word) (l : Latches) : Latches :=
  { orders := clearedBy value 1 l.orders, dry := clearedBy value 2 l.dry, fault := clearedBy value 3 l.fault,
    failed := clearedBy value 4 l.failed }

/-! ## Codes of 9.1 and of Layouts -/

def DeviceState.code : DeviceState → Nat
  | .dormant => 0 | .ready => 1 | .watching => 2 | .stopping => 3 | .failed => 4

def FailReason.code : FailReason → Nat
  | .none => 0 | .selfCheck => 1 | .doubleFault => 2 | .fatalCause => 3

def ChainCondition.code : ChainCondition → Nat
  | .ok => 0 | .dry => 1 | .held => 2

/-! ## What register reads return (R173) -/

/-- IDENT: part code 0x4840 and revision. -/
def identWord : Word := BitVec.ofNat 32 (0x4840 * 65536 + Config.revision.toNat)

/-- EXCHANGE BASE LOW: the base in effect, not the staged half (R174). -/
def baseLowWord (s : State) : Word := s.base.setWidth 32

/-- EXCHANGE BASE HIGH. -/
def baseHighWord (s : State) : Word := (s.base >>> 32).setWidth 32

/-- CONTROL: the enables; the action field reads 0 (R176). -/
def controlWord (s : State) : Word := s.enables.setWidth 32

/-- STATUS (9.1). -/
def statusWord (s : State) : Word :=
  BitVec.ofNat 32 (s.device.code + 16 * s.failReason.code + 256 * s.mover.condition.code +
    4096 * boolNat s.writer.overflow + 65536 * s.engine.parked.length + 1048576 * s.writer.held.length)

/-- CAUSE. -/
def causeWord (s : State) : Word := (causeBits s).setWidth 32

/-- What a NOTICE read returns: the oldest row number, or 0xFFFF (R167). -/
def noticeWord (s : State) : Word :=
  match s.writer.notices with
  | [] => 0xFFFF
  | row :: _ => BitVec.ofNat 32 row.val

end Sys2Proof.Machine
end

