-- ==== Sys2Proof/Machine/Layouts.lean ====
section
/-! DEFINITION. The layouts the part writes (11, R214, R215, R217): codes, capture records, passage records, fault notes,
the identity block, tile headers. Snapshot bodies stand in Machine/Snapshot.lean. Absent values are all ones unless the
layout says otherwise. -/

namespace Sys2Proof.Machine

open Sys2Proof

/-! ## Causes (10.3) -/

def CauseCode.num : CauseCode → Nat
  | .unrouted => 0 | .doubleFault => 1 | .wheelUnpaired => 2 | .axleOverrun => 3 | .speedImplausible => 4
  | .curtainBlind => 5 | .sightingOverflow => 6 | .passageRefused => 7 | .passageStalled => 8 | .scheduleFull => 9
  | .shotMissed => 10 | .runFault => 11 | .awaitTimeout => 12 | .flashDenied => 13 | .strobeSilent => 14
  | .frameTimeout => 15 | .frameMismatch => 16 | .cameraSilent => 17 | .tileDropped => 18 | .chainDry => 19
  | .cardCheck => 20 | .cardEmpty => 21 | .cardWrite => 22 | .logFull => 23 | .recordLost => 24
  | .noticeOverflow => 25 | .rowWrite => 26 | .exchangeRead => 27

/-- The class of a cause is fixed by its code (10.3). -/
def CauseCode.cls : CauseCode → CauseClass
  | .doubleFault => .fatal | .rowWrite => .fatal | .exchangeRead => .fatal
  | .curtainBlind => .stop | .strobeSilent => .stop | .cameraSilent => .stop
  | .cardCheck => .hold | .cardEmpty => .hold | .cardWrite => .hold
  | .unrouted => .note | .wheelUnpaired => .note | .axleOverrun => .note | .speedImplausible => .note
  | .sightingOverflow => .note | .passageRefused => .note | .passageStalled => .note | .scheduleFull => .note
  | .shotMissed => .note | .runFault => .note | .awaitTimeout => .note | .flashDenied => .note
  | .frameTimeout => .note | .frameMismatch => .note | .tileDropped => .note | .chainDry => .note
  | .logFull => .note | .recordLost => .note | .noticeOverflow => .note

def CauseClass.code : CauseClass → Nat
  | .note => 0 | .stop => 1 | .hold => 2 | .fatal => 3

/-- The miss reason codes of R215; they are the detail of SHOT_MISSED. -/
def MissReason.code : MissReason → Nat
  | .late => 0 | .offline => 1 | .notPlanned => 2 | .busy => 3 | .waking => 4 | .stalled => 5 | .abandoned => 6

/-! ## Capture record (11.6, R215) -/

def directionCode : Option Direction → Nat
  | some .up => 0 | some .down => 1 | none => 3

def headClassCode : Option HeadClass → Nat
  | some .raised => 0 | some .lowered => 1 | none => 3

/-- The outcome byte: outcome in bits 1-0, miss reason in bits 4-2, UNSYNCED in bit 7 (11.6). For an outcome other than
MISSED the miss reason bits are 0 (DESIGN CHOICE, log 51). -/
def outcomeByte (o : CaptureOutcome) (unsynced : Bool) : Byte :=
  let low := match o with
    | .done => 0
    | .missed r => 1 + 4 * r.code
    | .abandoned => 2
    | .faulted => 3
  byteOf (low + 128 * boolNat unsynced)

def TileOutcome.code : TileOutcome → Nat
  | .tiled => 0 | .dropped => 1 | .timedOut => 2 | .mismatched => 3 | .failed => 4 | .pending => 7

/-- An entry names a card when it is TILED or FAILED (11.6). -/
def Exposure.hasCard (e : Exposure) : Bool := e.outcome == .tiled || e.outcome == .failed

/-- The card base: the card of the lowest-numbered entry with one; all ones when there is none (11.6). -/
def cardBase (es : List Exposure) : Addr :=
  match es.find? Exposure.hasCard with
  | some e => e.card.getD (BitVec.allOnes 64)
  | none => BitVec.allOnes 64

/-- The card offset of an entry, 24 bits (11.6). -/
def cardOffset (base : Addr) (e : Exposure) : Nat :=
  if e.hasCard then
    let d : Int := ((e.card.getD 0).toNat : Int) - (base.toNat : Int)
    let steps := d / 32
    if d % 32 = 0 ∧ -8388607 ≤ steps ∧ steps ≤ 8388607 then (steps % 16777216).toNat else 8388608
  else 0

/-- One exposure entry, three 32-bit words (11.6). -/
def exposureEntry (start : Time) (base : Addr) (e : Exposure) : List Byte :=
  let startOffset := min (elapsed start e.start) 2097151
  let unit := match e.unit with | some u => u.val | none => 7
  let length := if e.hasCard then e.tileLength.getD 0 else 0
  let flags := boolNat e.dark + 2 * boolNat e.glared + 4 * boolNat e.clipped + 8 * boolNat e.truncated
  le 4 (e.length + 2048 * startOffset) ++
    le 4 (length + 4194304 * e.outcome.code + 33554432 * unit + 268435456 * flags) ++
    le 4 (cardOffset base e + 16777216 * e.tag.toNat)

/-- The body of a capture record, bytes 8 to 127 of its row. -/
def captureBody (r : CaptureRecord) : List Byte :=
  let runOffset := match r.start with | some t => elapsed r.due t | none => 8191
  let start := r.start.getD r.due
  let base := cardBase r.exposures
  padTo 120 (le 2 r.pid.toNat ++
    [byteOf (r.sighting + 16 * r.exposures.length),
     byteOf (r.station.val + 16 * r.track.val + 64 * directionCode r.dir),
     byteOf (r.topBeam.getD 31 + 64 * headClassCode r.headClass),
     outcomeByte r.outcome r.unsynced] ++
    le 4 (r.speed.getD 131071 + 131072 * runOffset) ++ le 6 r.due.toNat ++ le 8 base.toNat ++
    r.exposures.flatMap (exposureEntry start base))

/-! ## Passage record (11.7) -/

def CloseReason.code : CloseReason → Nat
  | .cleared => 0 | .stalled => 1 | .abandoned => 2 | .trackClosed => 3

def closeCode : Option CloseReason → Nat
  | some c => c.code
  | none => 255

def speedField (v : Option Nat) : List Byte := le 4 (v.getD 4294967295)

/-- The body of a passage record. -/
def passageBody (r : PassageRecord) : List Byte :=
  padTo 120 (le 2 r.id.toNat ++
    [byteOf r.track.val, byteOf (directionCode (some r.dir)), byteOf (closeCode r.close), byteOf r.sightings,
     byteOf r.untimed, 0] ++
    le 6 r.openTime.toNat ++ le 6 r.lastPulse.toNat ++ speedField r.minSpeed ++ speedField r.maxSpeed ++
    le 2 r.axles ++ le 2 r.overflow ++ le 2 r.roofItems ++ le 2 r.unpaired ++ le 2 r.implausible)

/-! ## Fault note (11.8) -/

/-- The body of a fault note. An absent field holds 0. -/
def faultNoteBody (r : FaultNote) : List Byte :=
  let presence := boolNat r.original.isSome + 2 * boolNat r.track.isSome + 4 * boolNat r.station.isSome +
    8 * boolNat r.unit.isSome + 16 * boolNat r.pid.isSome + 32 * boolNat r.detail.isSome
  padTo 120 ([byteOf r.code.num, byteOf r.cls.code, byteOf presence,
    byteOf (match r.original with | some c => c.num | none => 0),
    byteOf (match r.track with | some t => t.val | none => 0),
    byteOf (match r.station with | some st => st.val | none => 0),
    byteOf (match r.unit with | some u => u.val | none => 0), 0] ++
    le 2 (r.pid.getD 0).toNat ++ le 6 r.time.toNat ++ le 8 (r.detail.getD 0).toNat)

/-! ## Rows (11.5) -/

def Record.kindCode : Record → Nat
  | .capture _ => 1
  | .passage _ => 2
  | .faultNote _ => 3
  | .snapshot _ _ _ _ => 4

def Record.isNote : Record → Bool
  | .faultNote _ => true
  | .capture _ => false
  | .passage _ => false
  | .snapshot _ _ _ _ => false

/-- The bodies of a record, one for each row it takes (R157). -/
def Record.bodies : Record → List (List Byte)
  | .capture r => [captureBody r]
  | .passage r => [passageBody r]
  | .faultNote r => [faultNoteBody r]
  | .snapshot p1 p2 p3 p4 => [p1, p2, p3, p4]

/-- Bytes 1 to 127 of a row: the header without its state byte, then the body (11.5). -/
def rowBytes (kind part lost : Nat) (sequence : BitVec 32) (body : List Byte) : List Byte :=
  byteOf (kind + 16 * part) :: le 2 lost ++ le 4 sequence.toNat ++ padTo 120 body

/-! ## The exchange area (11.1) -/

/-- The address of a slot of the order board. -/
def slotAddr (slot : SlotId) (s : State) : Addr := offsetAddr s.base (0x400 + 64 * slot.val)

/-- The address of a result row. -/
def rowAddr (row : RowId) (s : State) : Addr := offsetAddr s.base (0x1000 + 128 * row.val)

/-- Bytes 0 to 254 of the identity block (R175, 11.2). -/
def identityBytes : List Byte :=
  padTo 255 (le 2 0x4840 ++ [Config.revision, 0, 4, 8, 6, 48, 12] ++ le 2 512 ++ [16, 16, 32, 27])

/-- The integrity byte: 256 minus the sum of bytes 0 to 254, mod 256 (R214). -/
def integrityByte : Byte := - byteSum identityBytes

/-! ## Tiles and cards (11.4) -/

/-- The 16-byte tile header. -/
def tileHeader (keptWidth keptHeight depth left top width height : Nat) : List Byte :=
  le 2 keptWidth ++ le 2 keptHeight ++ [byteOf depth, 0] ++ le 2 left ++ le 2 top ++ le 2 width ++ le 2 height ++ le 2 0

def statusFilled : Byte := 1
def statusTruncated : Byte := 2
def statusWithdrawn : Byte := 3
def statusFailed : Byte := 4
def ownerDevice : Byte := 0x5A
def ownerHost : Byte := 0x00

/-- The device fields of a card as (offset, bytes) (R141, 11.4), written lowest offset first (DESIGN CHOICE, log 56). -/
def deviceFields (status : Byte) (fill : Nat) (t : Tile) : List (Nat × List Byte) :=
  [(2, [status, byteOf t.station.val]), (24, le 4 fill ++ le 2 t.pid.toNat ++ [byteOf t.number, byteOf t.sighting])]

end Sys2Proof.Machine
end

