-- ==== Sys2Proof/Machine/Operands.lean ====
section
/-! DEFINITION. Reading the structures the host writes: order slots (11.3), site plans (11.10, R183, R216), program
tables (11.11, R70), frame cards (11.4, R135, R214). Unused bytes and bits are not judged (R217). -/

namespace Sys2Proof.Machine

open Sys2Proof

/-! ## Order slots (11.3) -/

/-- The order in the 64 bytes of a slot. -/
def slotOrder (slot : List Byte) : Order :=
  match leAt slot 1 1 with
  | 1 => .loadPlan (BitVec.ofNat 64 (leAt slot 8 8))
  | 2 => .loadPrograms (BitVec.ofNat 16 (leAt slot 4 2)) (BitVec.ofNat 64 (leAt slot 8 8))
  | 3 => .openTrack (slot.getD 4 0)
  | 4 => .closeTrack (slot.getD 4 0) (slot.getD 5 0)
  | 5 => .giveChain (BitVec.ofNat 64 (leAt slot 8 8))
  | 6 => .withdrawCards (slot.getD 4 0) (BitVec.ofNat 64 (leAt slot 8 8))
  | 7 => .drain
  | 8 => .abandonPassage (BitVec.ofNat 16 (leAt slot 4 2))
  | 9 => .testShot (slot.getD 4 0) (slot.getD 5 0) (BitVec.ofNat 32 (leAt slot 8 4))
  | 10 => .snapshot
  | 11 => .setRest (slot.getD 4 0) (slot.getD 5 0)
  | _ => .badKind

/-- The track a byte names, if it is one of T0-T3. -/
def trackOfByte (b : Byte) : Option TrackId :=
  if h : b.toNat < 4 then some ⟨b.toNat, h⟩ else none

/-- The station a byte names, if it is one of S0-S7. -/
def stationOfByte (b : Byte) : Option StationId :=
  if h : b.toNat < 8 then some ⟨b.toNat, h⟩ else none

/-- The program a byte names, if it is one of 0-15. -/
def programOfByte (b : Byte) : Option ProgramId :=
  if h : b.toNat < 16 then some ⟨b.toNat, h⟩ else none

/-! ## Site plan (11.10) -/

/-- A value lies in a range. -/
def within (lo hi x : Nat) : Bool := decide (lo ≤ x) && decide (x ≤ hi)

/-- The plan check: the 436 little-endian words sum to 0 mod 65,536 (R183, R216). -/
def planSumGood (plan : List Byte) : Bool :=
  ((List.range 436).map fun i => leAt plan (2 * i) 2).sum % 65536 == 0

/-- A signed 32-bit field. -/
def intAt (bytes : List Byte) (pos : Nat) : Int := (BitVec.ofNat 32 (leAt bytes pos 4)).toInt

/-- The checks of a track entry, in field order; only `enabled` is checked when the track is disabled (R183). -/
def trackChecks (plan : List Byte) (t : Nat) : List (Nat × Bool) :=
  let o := 0x010 + 16 * t
  let v := fun pos n => leAt plan (o + pos) n
  (o, within 0 1 (v 0 1)) ::
    if v 0 1 == 0 then []
    else
      [(o + 1, within 0 22 (v 1 1)), (o + 2, within (v 1 1 + 1) 23 (v 2 1)), (o + 3, within 1 8 (v 3 1)),
       (o + 4, within 500 5000 (v 4 2)), (o + 6, within 500 5000 (v 6 2)),
       (o + 8, v 8 2 == 0 || within 20 2000 (v 8 2)), (o + 10, within 0 10000 (v 10 2)), (o + 12, within 1 60 (v 12 1)),
       (o + 13, within 2 120 (v 13 1)), (o + 14, within 5000 50000 (v 14 2))]

/-- The checks of a station entry, in field order (R183, R216). -/
def stationChecks (plan : List Byte) (n : Nat) : List (Nat × Bool) :=
  let o := 0x050 + 80 * n
  let v := fun pos k => leAt plan (o + pos) k
  let offset := intAt plan (o + 4)
  [(o, within 0 3 (v 0 1)), (o + 1, within 1 3 (v 1 1)), (o + 2, v 2 1 == 255 || within 0 15 (v 2 1)),
   (o + 3, v 3 1 == 255 || within 0 15 (v 3 1)),
   (o + 4, decide (-60000 ≤ offset) && decide (offset ≤ 60000) && !decide (offset = 0)),
   (o + 8, within 0 20000 (v 8 2)), (o + 10, within 0 5000 (v 10 2)), (o + 12, within 0 63 (v 12 1)),
   (o + 13, within 0 1 (v 13 1)), (o + 14, within 0 4095 (v 14 2)), (o + 16, within 1 1024 (v 16 2)),
   (o + 18, within 1 1024 (v 18 2)), (o + 20, within 0 4095 (v 20 2)), (o + 22, within 0 600 (v 22 2)),
   (o + 24, within 10 5000 (v 24 2)), (o + 26, v 26 1 == 0 || within 5 200 (v 26 1))] ++
    (List.range 24).map fun i => (o + 32 + 2 * i, within 0 4095 (v (32 + 2 * i) 2))

/-- The checks of a unit entry (R183, R216): lit tracks 1 to 4 of T0-T3, recharge limit. -/
def unitChecks (plan : List Byte) (u : Nat) : List (Nat × Bool) :=
  let o := 0x2D0 + 4 * u
  [(o, within 1 15 (leAt plan o 1)), (o + 2, within 50 5000 (leAt plan (o + 2) 2))]

/-- The check of a routing entry below the limit, refused at the entry's offset (R207). -/
def routingCheck (plan : List Byte) (c : Nat) : Nat × Bool :=
  let o := 0x2E8 + 2 * c
  (o, within 0 1 (leAt plan o 1) && within 0 1 (leAt plan (o + 1) 1))

/-- Every range check of R183 in the order the fields stand in the plan: the field's offset, whether it passes. -/
def planChecks (plan : List Byte) : List (Nat × Bool) :=
  let limit := leAt plan 2 1
  [(2, within 2 64 limit), (4, within 50 3000 (leAt plan 4 2)),
   (6, within (leAt plan 4 2) 3000 (leAt plan 6 2))] ++
    (List.range 4).flatMap (trackChecks plan) ++ (List.range 8).flatMap (stationChecks plan) ++
    (List.range 6).flatMap (unitChecks plan) ++ (List.range (min limit 64)).map (routingCheck plan)

/-- The offset of the first field out of range. -/
def firstBadField (plan : List Byte) : Option Nat := ((planChecks plan).find? fun c => !c.2).map Prod.fst

/-- A track's plan entry; a bounce time of 0 is the default of 200 us (R183). -/
def trackPlanOf (plan : List Byte) (t : TrackId) : TrackPlan :=
  let o := 0x010 + 16 * t.val
  let v := fun pos n => leAt plan (o + pos) n
  { enabled := v 0 1 == 1, roofLine := v 1 1, contact := v 2 1, settleScans := v 3 1, uSpacing := v 4 2,
    dSpacing := v 6 2, bounce := if v 8 2 = 0 then 200 else v 8 2, settleMs := v 10 2, stuckS := v 12 1,
    silenceS := v 13 1, tail := v 14 2 }

/-- A station's plan entry; a frame timeout of 0 is the default of 50 ms (R183). -/
def stationPlanOf (plan : List Byte) (st : StationId) : StationPlan :=
  let o := 0x050 + 80 * st.val
  let v := fun pos n => leAt plan (o + pos) n
  let serves := BitVec.ofNat 8 (v 1 1)
  { track := Fin.ofNat 4 (v 0 1), servesUp := serves.getLsbD 0, servesDown := serves.getLsbD 1,
    programUp := programOfByte (BitVec.ofNat 8 (v 2 1)), programDown := programOfByte (BitVec.ofNat 8 (v 3 1)),
    offset := intAt plan (o + 4), lead := v 8 2, tolerance := v 10 2, strobeMask := BitVec.ofNat 6 (v 12 1),
    sensitive := v 13 1 == 1, cropLeft := v 14 2, cropWidth := v 16 2, cropHeight := v 18 2, testRow := v 20 2,
    restS := v 22 2, wakeMs := v 24 2, frameTimeout := if v 26 1 = 0 then 50 else v 26 1,
    heights := (List.range 24).map fun i => v (32 + 2 * i) 2 }

/-- A unit's lit tracks and recharge limit. -/
def litTracksOf (plan : List Byte) (u : UnitId) : BitVec 4 := BitVec.ofNat 4 (leAt plan (0x2D0 + 4 * u.val) 1)
def rechargeOf (plan : List Byte) (u : UnitId) : Nat := leAt plan (0x2D0 + 4 * u.val + 2) 2

/-- The routing entries below the limit (R207). -/
def routingOf (plan : List Byte) : List Routing :=
  (List.range (min (leAt plan 2 1) 64)).map fun c =>
    { note := leAt plan (0x2E8 + 2 * c) 1 == 1, signal := leAt plan (0x2E8 + 2 * c + 1) 1 == 1 }

/-! ## Program table (11.11) -/

/-- Why a step fails (R69, R70), coded as 11.3 gives. -/
inductive StepFailure where
  | unknownStep | badTarget | outOfRange
deriving DecidableEq, Repr

def StepFailure.code : StepFailure → Nat
  | .unknownStep => 1 | .badTarget => 2 | .outOfRange => 3

/-- The step in the 8 bytes at `o`, checked as R70 gives for step number `i`. Where a REPEAT fails both of its checks,
BAD TARGET is reported (DESIGN CHOICE, log 18). -/
def stepAt (table : List Byte) (o i : Nat) : Except StepFailure Step :=
  let v := fun pos n => leAt table (o + pos) n
  match v 0 1 with
  | 1 =>
    let intensity := v 1 1
    let mask := v 2 1
    let length := v 4 2
    let wait := v 6 2
    if within 10 2000 length && within 0 8 intensity && within 0 2000 wait && within 0 63 mask &&
        (intensity == 0 || !(mask == 0))
    then .ok (.expose length intensity (BitVec.ofNat 6 mask) wait) else .error .outOfRange
  | 2 =>
    let amount := v 4 4
    match v 1 1 with
    | 0 => if within 1 1000000 amount then .ok (.pause .time amount) else .error .outOfRange
    | 1 => if within 1 60000 amount then .ok (.pause .distance amount) else .error .outOfRange
    | _ => .error .outOfRange
  | 3 =>
    let target := v 1 1
    let count := v 2 1
    if target < i then
      if within 1 15 count then .ok (.loop (Fin.ofNat 32 target) count) else .error .outOfRange
    else .error .badTarget
  | 4 => if v 1 1 = 0 then .error .outOfRange else .ok (.mark (BitVec.ofNat 8 (v 1 1)))
  | 5 =>
    if v 1 1 = 0 then .error .outOfRange
    else if v 2 2 = 0 then .error .outOfRange
    else .ok (.await (BitVec.ofNat 8 (v 1 1)) (v 2 2))
  | 6 => .ok .finish
  | _ => .error .unknownStep

/-- The steps of a program from step `i` on, `n` of them; every step after the first FINISH is held as a FINISH (R70). -/
def stepsFrom (table : List Byte) (p : Nat) : Nat → Nat → Except (Nat × StepFailure) (List Step)
  | 0, _ => .ok []
  | n + 1, i =>
    match stepAt table (256 * p + 8 * i) i with
    | .error e => .error (i, e)
    | .ok .finish => .ok (List.replicate (n + 1) .finish)
    | .ok step =>
      match stepsFrom table p n (i + 1) with
      | .error e => .error e
      | .ok steps => .ok (step :: steps)

/-- A list of steps as a program of 32 steps, filled up with FINISH. -/
def programOfSteps (steps : List Step) : Program := Vector.ofFn fun i => steps.getD i.val .finish

/-- The programs of a mask, in program order; the first failing step stops the check (R69). -/
def programsOf (table : List Byte) (mask : BitVec 16) :
    List ProgramId → Except (Nat × Nat × StepFailure) (List (ProgramId × Program))
  | [] => .ok []
  | p :: ps =>
    if mask.getLsbD p.val then
      match stepsFrom table p.val 32 0 with
      | .error e => .error (p.val, e.1, e.2)
      | .ok steps =>
        match programsOf table mask ps with
        | .error e => .error e
        | .ok rest => .ok ((p, programOfSteps steps) :: rest)
    else programsOf table mask ps

def allPrograms : List ProgramId := [0, 1, 2, 3, 4, 5, 6, 7, 8, 9, 10, 11, 12, 13, 14, 15]

/-! ## Frame cards (11.4) -/

def cardOwnedByDevice (card : List Byte) : Bool := card.getD 0 0 == ownerDevice
def cardSumGood (card : List Byte) : Bool := byteSum card == 0
def cardCapacity (card : List Byte) : Nat := leAt card 4 4
def cardBuffer (card : List Byte) : Addr := BitVec.ofNat 64 (leAt card 8 8)
def cardNext (card : List Byte) : Addr := BitVec.ofNat 64 (leAt card 16 8)

end Sys2Proof.Machine
end

