-- ==== Sys2Proof/Machine/Failure.lean ====
section
/-! DEFINITION. The entry into device state FAILED (R202) as every block's own rule gives it, and what a card write in
progress leaves in host memory when it is stopped (R154, R155). -/

namespace Sys2Proof.Machine

open Sys2Proof

/-! ## A card write stopped on its way -/

/-- A tile is cut to the card's capacity (R141). -/
def cutTile (c : CurrentCard) : List Byte := c.tile.bytes.take c.capacity

/-- The tile is longer than the card's capacity. -/
def isCut (c : CurrentCard) : Bool := decide (c.capacity < c.tile.bytes.length)

/-- The writes of WRITING in order: the tile's bytes, the device fields, the owner byte (R141). -/
def writingRuns (c : CurrentCard) : List (Addr × List Byte) :=
  (c.buffer, cutTile c) ::
    (deviceFields (if isCut c then statusTruncated else statusFilled) (cutTile c).length c.tile).map
      (fun f => (offsetAddr c.address f.1, f.2)) ++
    [(c.address, [ownerHost])]

/-- The writes of MARKING in order: the status, then the owner byte (R140). -/
def markingRuns (m : MarkedCard) : List (Addr × List Byte) :=
  [(offsetAddr m.address 2, [statusWithdrawn]), (m.address, [ownerHost])]

/-- How many bytes a list of writes has. -/
def runsLength (runs : List (Addr × List Byte)) : Nat := (runs.map fun r => r.2.length).sum

/-- The first `n` bytes of a list of writes land. -/
def landRuns : List (Addr × List Byte) → Nat → State → State
  | [], _, s => s
  | r :: rest, n, s =>
    if n = 0 then s
    else landRuns rest (n - r.2.length)
      (emit (.hostWrite r.1 (r.2.take n))
        { s with mem := (Memory.writeUntilError [] s.mem r.1 (r.2.take n)).1 })

/-- The writes of the phase in progress. -/
def phaseRuns (m : TileMover) : List (Addr × List Byte) :=
  match m.phase, m.current, m.marked with
  | .writing, some c, _ => writingRuns c
  | .marking, _, some c => markingRuns c
  | _, _, _ => []

/-- A card write in progress stops where it stands: how much of it had landed is a free value (log 8). Its last byte is the
owner byte: at the entry into FAILED that byte's write may have completed (R154, `whole` true); at a reset the card stays
DEVICE-owned (R155, R204; `whole` false). -/
def stopCardWrite (whole : Bool) (s : State) : State :=
  match phaseRuns s.mover with
  | [] => s
  | runs =>
    let r := takeFreeNat s
    landRuns runs (r.1 % (runsLength runs + boolNat whole)) r.2

/-! ## Every block's entry into FAILED -/

/-- A wheel filter when the line is not taken: QUIET, its bounce timer stopped; the line keeps its level. -/
def WheelFilter.drop (f : WheelFilter) : WheelFilter := { f with state := .quiet, bounce := none }

/-- A track enters CLOSED and the unit drops its wheel and curtain state (R2). -/
def TrackUnit.drop (u : TrackUnit) : TrackUnit :=
  { u with
    state := .closed, settleTimer := none, ignoreTimer := none, uOuter := u.uOuter.drop, uInner := u.uInner.drop,
    dInner := u.dInner.drop, dOuter := u.dOuter.drop, served := none, uQueue := [], dQueue := [], curtain := .reset }

/-- A station at the entry into FAILED (R96): OFFLINE, no run, timers stopped, mark set emptied; its plan stays. -/
def Station.fail (x : Station) : Station := { Station.reset with plan := x.plan }

/-- A strobe unit at the entry into FAILED (R116): OUT, fire line dropped, supply disabled; its plan stays. -/
def StrobeUnit.fail (u : StrobeUnit) : StrobeUnit :=
  { StrobeUnit.reset with litTracks := u.litTracks, rechargeMs := u.rechargeMs, reach := u.reach, users := u.users }

/-- The tile mover at the entry into FAILED (R154): cursor, withdraw list and drain context stay. Chain condition and hold
reason, which the rule does not name, stay too (DESIGN CHOICE, log 48). Look pending and pending head go with the operation
they wait on (DEDUCED, log 20). -/
def TileMover.fail (m : TileMover) : TileMover :=
  { m with
    queue := [], phase := .idle, current := none, marked := none, pendingHead := none, lookPending := false
    abandoned := [] }

/-- Every block drops its work at the entry into FAILED (R2, R45, R67, R96, R116, R133, R154, R171, R197). -/
def hush (s : State) : State :=
  { s with
    tracks := s.tracks.map TrackUnit.drop
    passages := Vector.replicate 8 none
    schedule := []
    dueTimer := none
    stations := s.stations.map Station.fail
    units := s.units.map StrobeUnit.fail
    waiting := []
    openExposures := Vector.replicate 8 none
    lingering := []
    ports := s.ports.map fun p => { p with awaited := [] }
    mover := s.mover.fail
    writer := { s.writer with held := [] }
    engine := .reset
    undone := [] }

/-- Every block takes the entry into FAILED; a card write in progress stops where it stands (R154). -/
def quiet (s : State) : State := hush (stopCardWrite true s)

/-- The entry into FAILED (R202). A second FATAL cause finds the device FAILED and is discarded. -/
def enterFailed (reason : FailReason) (s : State) : State :=
  if s.device = .failed then s
  else quiet (latchFailed { s with device := .failed, failReason := reason })

end Sys2Proof.Machine
end

