-- ==== Sys2Proof/Machine/Writer.lean ====
section
/-! DEFINITION. The report writer (08) and the routing of causes by the fault unit (10): a cause may make a fault note, a
note is a record, and the placing of a record may raise further causes. -/

namespace Sys2Proof.Machine

open Sys2Proof

/-! ## Causes the writer raises (R170) -/

def writerCause (code : CauseCode) (detail : Option Nat) : Cause :=
  { code := code, track := none, station := none, unit := none, pid := none, detail := detail.map (BitVec.ofNat 64) }

/-- RECORD_LOST carries the track, station and passage id the lost record has (R162). -/
def recordLostCause (r : Record) (lost : Nat) : Cause :=
  let c := writerCause .recordLost (some lost)
  match r with
  | .capture x => { c with track := some x.track, station := some x.station, pid := some x.pid }
  | .passage x => { c with track := some x.track, pid := some x.id }
  | .faultNote _ => c
  | .snapshot _ _ _ _ => c

/-! ## Placing a record -/

/-- What becomes of a record handed to the writer (R169); discarded in FAILED or by a bus error (R160, R171). -/
inductive Placement where
  | written (row : RowId)
  | held
  | lost
  | discarded
deriving DecidableEq, Repr

/-- The state bytes of the rows a record would take, read in cursor order (R158, R159). -/
inductive RowsState where
  | free
  | blocked (row : RowId)
  | busError (row : RowId)
deriving DecidableEq, Repr

/-- The rows a record takes, from the row cursor on, cyclically (R159). -/
def rowsFrom (cursor : RowId) (n : Nat) : List RowId := (List.range n).map fun i => cursor + Fin.ofNat 512 i

/-- Every row's state byte is read, in cursor order; the first bus error ends the reading (R160), the first row that does
not read FREE blocks the record (R159). Any value of a state byte but FREE is taken as WRITTEN (R156). -/
def readRows (s : State) : List RowId → RowsState
  | [] => .free
  | row :: rest =>
    if busReadFails (rowAddr row s) 1 s then .busError row
    else if busRead (rowAddr row s) 1 s = [0] then readRows s rest
    else
      match readRows s rest with
      | .busError bad => .busError bad
      | .free => .blocked row
      | .blocked _ => .blocked row

/-- A row number is appended to the notice queue (R166); `true` when NOTICE_OVERFLOW is to be raised. -/
def appendNotice (row : RowId) (s : State) : State × Bool :=
  if s.writer.notices.contains row then (s, false)
  else if s.writer.notices.length < 64 then
    (withIrq (modWriter fun w => { w with notices := w.notices ++ [row] }) s, false)
  else if s.writer.overflow then (s, false)
  else (modWriter (fun w => { w with overflow := true }) s, true)

/-- What writing a record's rows came to: all of them written, with the row whose number was not queued at the setting of
notice overflow; or a bus error at a row. -/
inductive RowsWritten where
  | all (overflow : Option RowId)
  | busError (row : RowId)
deriving DecidableEq, Repr

/-- Header and body, then the state byte WRITTEN, then the notice, for each part in turn (R158, R159). When the state
byte's own write fails, it may hold either value: a free bit (R160, log 11). -/
def writeRows (kind lost : Nat) (sequence : BitVec 32) :
    List (RowId × List Byte) → Nat → Option RowId → State → State × RowsWritten
  | [], _, unqueued, s => (s, .all unqueued)
  | (row, body) :: rest, part, unqueued, s =>
    let a := rowAddr row s
    let r := busWrite (offsetAddr a 1) (rowBytes kind part lost sequence body) s
    if r.2 then
      let q := busWrite a [1] r.1
      if q.2 then
        let n := appendNotice row q.1
        writeRows kind lost sequence rest (part + 1) (if n.2 then some row else unqueued) n.1
      else
        let b := takeFreeBit q.1
        (if b.1 then { b.2 with mem := Memory.write b.2.mem a.toNat 1 } else b.2, .busError row)
    else (r.1, .busError row)

/-- A record's rows read FREE: they are written, the lost count becomes 0, the sequence and the cursor advance
(R158, R159). NOTICE_OVERFLOW is raised after the record is finished with (R170). Where a part of a snapshot set notice
overflow and a later part meets a bus error, ROW_WRITE is raised first, and NOTICE_OVERFLOW, raised in FAILED, is discarded
(DESIGN CHOICE, log 39). -/
def writeRecord (r : Record) (s : State) : State × Placement × List Cause :=
  let rows := rowsFrom s.writer.rowCursor r.bodies.length
  let q := writeRows r.kindCode s.writer.lost s.writer.sequence (rows.zip r.bodies) 1 none s
  match q.2 with
  | .busError row => (q.1, .discarded, [writerCause .rowWrite (some row.val)])
  | .all unqueued =>
    (modWriter (fun w => { w with
        lost := 0, sequence := w.sequence + 1, rowCursor := w.rowCursor + Fin.ofNat 512 r.bodies.length }) q.1,
      .written s.writer.rowCursor,
      match unqueued with
      | some row => [writerCause .noticeOverflow (some row.val)]
      | none => [])

/-- Room in the held record queue (R161). -/
def hasRoom (r : Record) (held : List Record) : Bool :=
  if r.isNote then decide (held.length < 8)
  else decide (held.length < 8) && decide ((held.filter fun x => !x.isNote).length < 6)

/-- A record that finds the log full is held, lost (R161, R162), or, being a fault note, meets DOUBLE FAULT (R163).
`full` is the row that read WRITTEN, when rows were read. -/
def holdRecord (r : Record) (full : Option RowId) (s : State) : State × Placement × List Cause :=
  if hasRoom r s.writer.held then
    (modWriter (fun w => { w with held := w.held ++ [r] }) s, .held,
      match full with
      | some row => [writerCause .logFull (some row.val)]
      | none => [])
  else if r.isNote then (s, .discarded, [writerCause .doubleFault none])
  else
    let lost := saturate (s.writer.lost + 1)
    (modWriter (fun w => { w with lost := lost }) s, .lost, [recordLostCause r lost])

/-- A record is placed by reading rows (steps 2 to 7 of R158, R159), `full` telling what a WRITTEN row leads to. -/
def placeInRows (r : Record) (full : RowId → State × Placement × List Cause) (s : State) :
    State × Placement × List Cause :=
  match readRows s (rowsFrom s.writer.rowCursor r.bodies.length) with
  | .busError row => (s, .discarded, [writerCause .rowWrite (some row.val)])
  | .blocked row => full row
  | .free => writeRecord r s

/-- A record handed to the writer, and the causes to raise once it is finished with (R158-R163, R171). While the base is
0 no row is read and no LOG_FULL is raised. -/
def placeOnce (r : Record) (s : State) : State × Placement × List Cause :=
  if s.device = .failed then (s, .discarded, [])
  else if !s.writer.held.isEmpty || s.base == 0 then holdRecord r none s
  else placeInRows r (fun row => holdRecord r (some row) s) s

/-! ## Routing (R206-R210) -/

/-- A cause is unrouted when its code is 0 or at or above the limit (R208). -/
def unrouted (c : CauseCode) (s : State) : Bool := c.num == 0 || decide (s.routingLimit ≤ c.num)

/-- Whether a fault note is built and whether CAUSE.FAULT is latched (R207, R208). -/
def routeOf (c : CauseCode) (s : State) : Routing :=
  if unrouted c s then { note := true, signal := true }
  else s.routing.getD c.num { note := false, signal := false }

/-- The fault note of a cause (R208, R209). -/
def noteOf (c : Cause) (s : State) : FaultNote :=
  { code := if unrouted c.code s then .unrouted else c.code, cls := c.code.cls,
    original := if unrouted c.code s then some c.code else none, time := s.gantryTime, track := c.track,
    station := c.station, unit := c.unit, pid := c.pid, detail := c.detail }

/-- The fail reason a FATAL cause sets (R202). -/
def failReasonOf : CauseCode → FailReason
  | .doubleFault => .doubleFault
  | _ => .fatalCause

/-- A cause is taken by its class and routed (R206-R209); the causes its note brings up are taken after the note and
before the latch, to a depth `n`. A cause raised in FAILED is discarded (R202). A chain of notes ends by R210: at most
NOTICE_OVERFLOW, LOG_FULL and a FATAL cause follow one another, so `n` = 8 cuts nothing off (log 13). -/
def raiseTo : Nat → Cause → State → State
  | 0, _, s => s
  | n + 1, c, s =>
    if s.device = .failed then s
    else if c.code.cls = .fatal then enterFailed (failReasonOf c.code) s
    else
      let route := routeOf c.code s
      let noted :=
        if route.note then
          let p := placeOnce (.faultNote (noteOf c s)) s
          p.2.2.foldl (fun s c => raiseTo n c s) p.1
        else s
      if route.signal then latchFault noted else noted

/-- A block raises a cause. -/
def raise (c : Cause) (s : State) : State := raiseTo 8 c s

/-- A block hands the writer a record; the causes that follow are raised. -/
def handRecord (r : Record) (s : State) : State × Placement :=
  let p := placeOnce r s
  (p.2.2.foldl (fun s c => raise c s) p.1, p.2.1)

/-! ## LOOK at the writer (R164) -/

/-- A retry pass, at most `n` records long. -/
def retryPass : Nat → State → State
  | 0, s => s
  | n + 1, s =>
    match s.writer.held with
    | [] => s
    | r :: rest =>
      if s.device = .failed then s
      else
        match readRows s (rowsFrom s.writer.rowCursor r.bodies.length) with
        | .blocked _ => s
        | .busError row => raise (writerCause .rowWrite (some row.val)) s
        | .free =>
          let p := writeRecord r (modWriter (fun w => { w with held := rest }) s)
          retryPass n (p.2.2.foldl (fun s c => raise c s) p.1)

/-- A LOOK at the report writer (R164). A pass writes the held records and at most the one note of NOTICE_OVERFLOW. -/
def lookWriter (s : State) : State :=
  if s.device = .failed || s.base == 0 then s else retryPass (s.writer.held.length + 2) s

end Sys2Proof.Machine
end

