-- ==== Sys2Proof/Machine/Accounts.lean ====
section
/-! DEFINITION. How work ends: the finish of an order (R182), the closing of a track (R2), the completion of a passage
(R42, R43), accounting notices (R34), the end of a test request (R65), and misses (R53). -/

namespace Sys2Proof.Machine

open Sys2Proof

/-! ## The finish of an order -/

/-- Result reasons (11.3). -/
inductive Reason where
  | none | wrongState | badKind | badArgument | planCheck | readError | noSuchPassage | stationBusy | parkFull | already
  | partialResult | failed
deriving DecidableEq, Repr

def Reason.code : Reason → Nat
  | .none => 0 | .wrongState => 1 | .badKind => 2 | .badArgument => 3 | .planCheck => 4 | .readError => 5
  | .noSuchPassage => 6 | .stationBusy => 7 | .parkFull => 8 | .already => 9 | .partialResult => 10 | .failed => 11

/-- How an order ended: DONE or REFUSED, its reason, its result bytes from byte 32 on. -/
structure OrderResult where
  done   : Bool
  reason : Reason
  bytes  : List Byte
deriving DecidableEq, Repr

def OrderResult.ok (bytes : List Byte) : OrderResult := { done := true, reason := .none, bytes := bytes }
def OrderResult.refused (reason : Reason) (bytes : List Byte) : OrderResult :=
  { done := false, reason := reason, bytes := bytes }

/-- EXCHANGE_READ with an offset within the exchange area (R175, R180, R182). -/
def exchangeRead (offset : Nat) (s : State) : State :=
  raise { code := .exchangeRead, track := none, station := none, unit := none, pid := none,
          detail := some (BitVec.ofNat 64 offset) } s

def slotOffset (slot : SlotId) : Nat := 0x400 + 64 * slot.val

def stateDone : Byte := 3
def stateRefused : Byte := 4
def stateTaken : Byte := 2
def statePosted : Byte := 1

/-- The writes of a finish: the result reason and result bytes, then the state byte, then CAUSE.ORDERS (R182, R195). The
reason stands before the result bytes (DESIGN CHOICE, log 58). A bus error on any of them raises EXCHANGE_READ with the
slot's offset. -/
def writeFinish (slot : SlotId) (res : OrderResult) (s : State) : State :=
  if s.device = .failed then s
  else
    let a := slotAddr slot s
    let r := busWrite (offsetAddr a 2) [byteOf res.reason.code] s
    if r.2 then
      let q := busWrite (offsetAddr a 32) (padTo 32 res.bytes) r.1
      if q.2 then
        let w := busWrite a [if res.done then stateDone else stateRefused] q.1
        if w.2 then latchOrders w.1 else exchangeRead (slotOffset slot) w.1
      else exchangeRead (slotOffset slot) q.1
    else exchangeRead (slotOffset slot) r.1

/-- A parked order leaves the parked order list at its finish (R178, R182). -/
def unpark (p : Parked) (s : State) : State :=
  modEngine (fun e => { e with parked := e.parked.filter fun q => q != p }) s

/-- The parked orders waiting on `w` are finished, one after the other. -/
def finishParked (w : ParkedFor) (res : OrderResult) (s : State) : State :=
  (s.engine.parked.filter fun p => p.waits == w).foldl (fun s p => writeFinish p.slot res (unpark p s)) s

/-! ## The closing of a track -/

/-- The mode by which a track closed (R187), coded as 11.3 gives. -/
inductive CloseMode where
  | now | after
deriving DecidableEq, Repr

def CloseMode.byte : CloseMode → Byte
  | .now => 0
  | .after => 1

/-- A track enters CLOSED: the unit drops its state, and a parked CLOSE TRACK AFTER on it is finished (R2, R187). -/
def enterClosed (t : TrackId) (mode : CloseMode) (s : State) : State :=
  finishParked (.track t) (.ok [mode.byte]) (modTrack t TrackUnit.drop s)

/-! ## Passages -/

/-- The passage record (R43). -/
def passageRecordOf (p : Passage) : PassageRecord :=
  { id := p.id, track := p.track, dir := p.dir, openTime := p.openTime, lastPulse := p.lastPulse, axles := p.axles,
    minSpeed := p.minSpeed, maxSpeed := p.maxSpeed,
    sightings := (p.sightings.filter fun x => x.state != .untimed).length,
    untimed := (p.sightings.filter fun x => x.state == .untimed).length,
    overflow := p.overflow, roofItems := p.roofItems, unpaired := p.unpaired, implausible := p.implausible,
    close := p.close }

/-- A mark discard reaches every station runner (R42, R88). -/
def discardMarks (pid : PassageId) (s : State) : State :=
  allStations.foldl (fun s st => modStation st (fun x => { x with marks := x.marks.filter fun m => m.pid != pid }) s) s

/-- The tracker tells the unit that a context of the track is FREE: a CLOSING track with none left closes (R2, R42). -/
def contextFreed (t : TrackId) (s : State) : State :=
  if s.tracks[t].state = .closing ∧ trackHasPassage t s = false then enterClosed t .after s else s

/-- A passage completes (R42): its record, the mark discard, the context FREE, the track told. -/
def completePassage (k : ContextId) (p : Passage) (s : State) : State :=
  let s := (handRecord (.passage (passageRecordOf p)) s).1
  if s.device = .failed then s
  else contextFreed p.track (setPassage k none (discardMarks p.id s))

/-- A passage in FINISHING with nothing outstanding completes (R42). -/
def completeIfDone (id : PassageId) (s : State) : State :=
  match contextOf id s with
  | none => s
  | some k =>
    match s.passages[k] with
    | none => s
    | some p => if p.state = .finishing ∧ p.outstanding = 0 then completePassage k p s else s

/-- One request of a sighting is accounted for (R34). -/
def Sighting.account (x : Sighting) : Sighting :=
  { x with openRequests := x.openRequests - 1, state := if x.openRequests ≤ 1 then .accounted else x.state }

/-- The sighting of a number that is not yet ACCOUNTED. -/
def openSighting (n : Nat) (x : Sighting) : Bool := x.number == some n && x.state == .planned

/-- An accounting notice (R34). A notice whose context or sighting is not found, or whose sighting is ACCOUNTED, changes
nothing. -/
def account (pid : PassageId) (sighting : Nat) (s : State) : State :=
  match contextOf pid s with
  | none => s
  | some k =>
    match s.passages[k] with
    | none => s
    | some p =>
      if p.sightings.any (openSighting sighting) then
        completeIfDone pid (setPassage k (some { p with
          sightings := p.sightings.map fun x => if openSighting sighting x then x.account else x
          outstanding := p.outstanding - 1 }) s)
      else s

/-- The notice that ends a test request finishes the parked TEST SHOT of the station (R65, R190). -/
def testEnded (st : StationId) (outcome : Byte) (exposures : Nat) (s : State) : State :=
  finishParked (.station st) (.ok [outcome, byteOf exposures]) s

/-! ## The shot schedule -/

/-- The lapse of a request: due time + late tolerance + 1 us (R60). -/
def Request.lapse (r : Request) : Time := plusUs r.due (r.tolerance + 1)

/-- Due time + late tolerance is less than now: the lapse has come (R51, R55, R60). -/
def Request.lapsed (r : Request) (now : Time) : Bool := reached r.lapse now

/-- The instant the due timer waits for on account of one request (R62), the due times up to `taken` having been taken. -/
def Request.nextInstant (taken : Time) (r : Request) : Time := if reached r.due taken then r.lapse else r.due

/-- The earliest of the instants of the schedule; none with the schedule empty (R62). -/
def earliestInstant (taken : Time) : List Request → Option Time
  | [] => none
  | r :: rest =>
    match earliestInstant taken rest with
    | none => some (r.nextInstant taken)
    | some t => some (if reached (r.nextInstant taken) t then r.nextInstant taken else t)

/-- The due timer is set to the earliest instant of the schedule (R62). -/
def freshDueTimer (s : State) : State := { s with dueTimer := earliestInstant s.gantryTime s.schedule }

/-- Up to when the due times of the schedule have been taken: now, or, where the due timer's expiry has come and is not
taken yet, up to the microsecond before it (DEDUCED, log 43). -/
def dueTaken (s : State) : Time :=
  match s.dueTimer with
  | none => s.gantryTime
  | some t => if reached t s.gantryTime then t - 1 else s.gantryTime

/-- The due timer is set afresh (R62). A due time that has come and is not taken yet is not passed over: its expiry is
still to be taken as the due expiry of R58 (log 43). With the schedule empty the timer is stopped. -/
def setDueTimer (s : State) : State := { s with dueTimer := earliestInstant (dueTaken s) s.schedule }

def setSchedule (l : List Request) (s : State) : State := setDueTimer { s with schedule := l }

/-- Two requests have the same key (00, "Request keys"). -/
def sameKey (r q : Request) : Bool := r.pid == q.pid && r.sighting == q.sighting && r.station == q.station

/-- A request leaves the schedule. -/
def unschedule (r : Request) (s : State) : State := setSchedule (s.schedule.filter fun q => !sameKey r q) s

/-! ## Misses -/

/-- The sighting a request is for. -/
def sightingOf (r : Request) (s : State) : Option Sighting :=
  (passageOf r.pid s).bind fun p => p.sightings.find? fun x => x.number == some r.sighting

/-- The track a request is on: its passage's, or the station's for a test request (R53). -/
def requestTrack (r : Request) (s : State) : TrackId :=
  match passageOf r.pid s with
  | some p => p.track
  | none => stationTrack r.station s

/-- The capture record of a miss (R53). -/
def missRecord (reason : MissReason) (r : Request) (s : State) : CaptureRecord :=
  { pid := r.pid, sighting := r.sighting, station := r.station, track := requestTrack r s,
    dir := (passageOf r.pid s).map Passage.dir,
    headClass := (sightingOf r s).bind Sighting.headClass, topBeam := (sightingOf r s).map Sighting.topBeam,
    speed := if r.pid = 0 then r.testSpeed else (passageOf r.pid s).bind Passage.estimate,
    due := r.due, start := none, outcome := .missed reason, unsynced := false, exposures := [] }

/-- The cause of a miss (R53). -/
def missCause (reason : MissReason) (r : Request) (s : State) : Cause :=
  { code := .shotMissed, track := some (requestTrack r s), station := some r.station, unit := none, pid := some r.pid,
    detail := some (BitVec.ofNat 64 reason.code) }

/-- A miss: SHOT_MISSED, the capture record, then the removal with its notice where the request had been placed; a test
request sends its notice either way (R53, R65). -/
def declareMiss (placed : Bool) (reason : MissReason) (r : Request) (s : State) : State :=
  let s := raise (missCause reason r s) s
  let s := (handRecord (.capture (missRecord reason r s)) s).1
  if s.device = .failed then s
  else
    let s := if placed then unschedule r s else s
    if r.pid = 0 then testEnded r.station (outcomeByte (.missed reason) false) 0 s
    else if placed then account r.pid r.sighting s
    else s

/-- Requests still in the schedule are removed as misses, in the order given (R56, R57, R65). -/
def missAll (reason : MissReason) (rs : List Request) (s : State) : State :=
  rs.foldl (fun s r => if s.schedule.any (sameKey r) then declareMiss true reason r s else s) s

end Sys2Proof.Machine
end

