-- ==== Sys2Proof/Machine/Strobes.lean ====
section
/-! DEFINITION. The strobe arbiter (05) and the beginning of an exposure (R82), which is one exchange with a grant. -/

namespace Sys2Proof.Machine

open Sys2Proof

/-! ## Reach and users (R98) -/

/-- The neighbours of a track: the tracks whose numbers differ from it by one. -/
def isNeighbour (a b : Nat) : Bool := a + 1 == b || b + 1 == a

/-- The glare reach: the lit tracks with every neighbour of a lit track (R98). -/
def glareReach (lit : BitVec 4) : BitVec 4 :=
  allTracks.foldl (fun m t =>
    if allTracks.any fun q => lit.getLsbD q.val && (q == t || isNeighbour q.val t.val) then m ||| (1 <<< t.val) else m) 0

/-- The stations whose strobe mask names the unit (R98). -/
def userStations (u : UnitId) (s : State) : BitVec 8 :=
  allStations.foldl (fun m st =>
    match s.stations[st].plan with
    | none => m
    | some p => if p.strobeMask.getLsbD u.val then m ||| (1 <<< st.val) else m) 0

/-- A station is in the group RESTING, OFFLINE (R77). -/
def atRest (st : StationId) (s : State) : Bool :=
  match s.stations[st].state with
  | .resting => true
  | .offline => true
  | .waking => false
  | .idle => false
  | .running => false
  | .ending => false

/-- A unit is unused when every one of its user stations is RESTING or OFFLINE (R103). -/
def unused (u : UnitId) (s : State) : Bool :=
  allStations.all fun st => !s.units[u].users.getLsbD st.val || atRest st s

/-! ## Charging and resting -/

/-- The entry into CHARGING: the supply is enabled and the recharge timer started (R100). -/
def StrobeUnit.charge (now : Time) (x : StrobeUnit) : StrobeUnit :=
  { x with state := .charging, supply := true, rechargeTimer := some (plusUs now (millisUs x.rechargeMs)) }

/-- The entry into RESTING: the supply is disabled, the recharge timer stopped (R103). -/
def StrobeUnit.rest (x : StrobeUnit) : StrobeUnit :=
  { x with state := .resting, supply := false, rechargeTimer := none }

/-- A station has entered the group RESTING, OFFLINE: its unused units rest (R103). -/
def stationRests (st : StationId) (s : State) : State :=
  allUnits.foldl (fun s u =>
    if s.units[u].users.getLsbD st.val && unused u s &&
        (s.units[u].state == .charging || s.units[u].state == .ready)
    then modUnit u StrobeUnit.rest s else s) s

/-- A station has left the group: every RESTING unit it uses starts to charge (R104). -/
def stationWakes (st : StationId) (s : State) : State :=
  allUnits.foldl (fun s u =>
    if s.units[u].users.getLsbD st.val && s.units[u].state == .resting
    then modUnit u (StrobeUnit.charge s.gantryTime) s else s) s

/-! ## Openings and the interlock -/

/-- A station is glare-sensitive and on a track within a reach. -/
def sensitiveWithin (st : StationId) (reach : BitVec 4) (s : State) : Bool :=
  match s.stations[st].plan with
  | none => false
  | some p => p.sensitive && reach.getLsbD p.track.val

/-- The glare test at an opening (R113). -/
def isGlared (st : StationId) (s : State) : Bool :=
  allUnits.any fun u =>
    match s.units[u].firing with
    | none => false
    | some other => s.units[u].state == .firing && other != st && sensitiveWithin st s.units[u].reach s

/-- The station has an open exposure (R112). -/
def exposureOpen (st : StationId) (s : State) : Bool :=
  s.openExposures[st].isSome || s.lingering.any fun x => x.station == st

/-- The glare interlock bars a unit for a request of `st` (R107). -/
def barred (u : UnitId) (st : StationId) (s : State) : Bool :=
  allStations.any fun other =>
    other != st && sensitiveWithin other s.units[u].reach s && exposureOpen other s

/-- An exposure that stands in a station's place when a later one is entered there stays open beside it (R112, log 22). -/
def lingerOn (st : StationId) (s : State) : State :=
  { s with
    lingering := match s.openExposures[st] with
      | none => s.lingering
      | some e => s.lingering ++ [{ station := st, finish := e.finish }] }

/-- An exposure begins (R82): the entry joins the list, the port sends the trigger with its next tag (R120), the arbiter
enters the opening and tests it for glare (R112, R113), the step waits for the exposure's end. -/
def beginExposure (st : StationId) (length : Nat) (unit : Option UnitId) (dark : Bool) (s : State) : State :=
  match s.stations[st].run with
  | none => s
  | some r =>
    let number := r.exposures.length + 1
    let tag := s.ports[st].nextTag
    let finish := plusUs s.gantryTime length
    let e : Exposure :=
      { start := s.gantryTime, length := length, unit := unit, tag := tag, dark := dark, glared := isGlared st s,
        clipped := false, truncated := false, received := false, outcome := .pending, card := none, tileLength := none }
    setOpenExposure st (some { number := number, start := s.gantryTime, finish := finish })
      (lingerOn st (emit (.trigger st tag length)
        (modPort st (fun p => { p with
            nextTag := p.nextTag + 1, awaited := p.awaited ++ [{ number := number, tag := tag, phase := .opened }] })
          (modRun st (fun r => { r with exposures := r.exposures ++ [e], wait := .exposure finish }) s))))

/-! ## Requests, grants, denials -/

/-- The place of a request in the waiting list: ascending deadline, then ascending station (R105). -/
def insertFlash (r : FlashRequest) : List FlashRequest → List FlashRequest
  | [] => [r]
  | q :: rest =>
    if earlier q.deadline r.deadline || (q.deadline == r.deadline && decide (q.station.val ≤ r.station.val))
    then q :: insertFlash r rest else r :: q :: rest

/-- The pulse length: 20 us times the intensity, cut to the exposure length (R108). -/
def pulseLength (r : FlashRequest) : Nat := min (20 * r.intensity) r.length

/-- The station's request leaves the waiting list. -/
def dropFlash (st : StationId) (s : State) : State :=
  { s with waiting := s.waiting.filter fun q => q.station != st }

/-- A grant (R108). -/
def grant (r : FlashRequest) (u : UnitId) (s : State) : State :=
  let s := dropFlash r.station s
  let s := modUnit u (fun x => { x with
    state := .firing, firing := some r.station, pulseEnd := some (plusUs s.gantryTime (pulseLength r)),
    fireLine := true }) s
  beginExposure r.station r.length (some u) false s

/-- The lowest-numbered unit that can be granted to a request (R106). -/
def grantable (r : FlashRequest) (s : State) : Option UnitId :=
  allUnits.find? fun u => r.usable.getLsbD u.val && s.units[u].state == .ready && !barred u r.station s

/-- An arbitration pass (R106): the waiting requests in list order, each grant taking effect before the next. -/
def arbitrationPass (s : State) : State :=
  s.waiting.foldl (fun s r => match grantable r s with | none => s | some u => grant r u s) s

/-- FLASH_DENIED (R81): the exposure number as detail. -/
def flashDeniedCause (st : StationId) (number : Nat) (s : State) : Cause :=
  { code := .flashDenied, track := some (stationTrack st s), station := some st, unit := none,
    pid := s.stations[st].run.map Run.pid, detail := some (BitVec.ofNat 64 number) }

/-- A denial at the deadline (R110): the runner begins its exposure unlit and DARK and raises FLASH_DENIED (R81). -/
def denyFlash (r : FlashRequest) (s : State) : State :=
  let s := beginExposure r.station r.length none true (dropFlash r.station s)
  raise (flashDeniedCause r.station r.number s) s

/-- A flash request arrives (R105): it joins the waiting list, a pass is made, and a request whose deadline has come is
denied if the pass did not grant it. -/
def requestFlash (r : FlashRequest) (s : State) : State :=
  let s := arbitrationPass { s with waiting := insertFlash r s.waiting }
  if s.waiting.contains r && reached r.deadline s.gantryTime then denyFlash r s else s

end Sys2Proof.Machine
end

