-- ==== Sys2Proof/Machine/Runs.lean ====
section
/-! DEFINITION. The run (04, 4.3 to 4.5): the hand-over, the step kinds, marks, run faults, the close-out, and the offers
that a station's entry into IDLE brings. These call on each other, so each is one `Task` and `drain` handles the tasks
of an event in the order of calls, depth first (log 13). -/

namespace Sys2Proof.Machine

open Sys2Proof

/-! ## Marks (R85, R86) -/

/-- The named senders of an AWAIT or the receivers of a MARK: the stations of the mask but the running one. -/
def namedOthers (mask : Byte) (st : StationId) : List StationId :=
  allStations.filter fun x => mask.getLsbD x.val && x != st

/-- A mark is taken into a received-mark set (R85). -/
def takeMark (m : Mark) (set : List Mark) : List Mark :=
  if set.any fun x => x.sender == m.sender then set.map fun x => if x.sender == m.sender then m else x
  else set ++ [m]

/-- An AWAIT is complete (R86). -/
def awaitComplete (senders : List StationId) (pid : PassageId) (set : List Mark) : Bool :=
  senders.all fun x => set.contains { sender := x, pid := pid }

/-- The entries an AWAIT consumes leave the set (R86, R87). -/
def consumeMarks (senders : List StationId) (pid : PassageId) (set : List Mark) : List Mark :=
  set.filter fun m => !(senders.contains m.sender && m.pid == pid)

/-! ## Steps -/

/-- The step a run stands at; none when its program is NOT LOADED. -/
def currentStep (r : Run) (s : State) : Option Step := s.programs[r.program].map fun p => p[r.index]

/-- The steps of a run end (R84): its station enters ENDING, and the run is closed out if nothing is PENDING. -/
def endSteps (st : StationId) (s : State) : State × List Task :=
  (modStation st (fun x => { x with state := .ending, run := x.run.map fun r => { r with wait := .none } }) s,
    [.closeOut st])

/-- A step is done without a jump: the next step, or the end at step 31 (R80). -/
def stepDone (st : StationId) (r : Run) (s : State) : State × List Task :=
  if r.index.val = 31 then endSteps st s
  else (modRun st (fun r => { r with index := r.index + 1, wait := .none }) s, [.step st])

/-- RUN_FAULT (R91): the steps end with outcome FAULTED; `detail` is the step index, 0 for a program not loaded. -/
def runFault (st : StationId) (r : Run) (detail : Nat) (s : State) : State × List Task :=
  let q := endSteps st (modRun st (fun r => { r with outcome := .faulted }) s)
  (raise { code := .runFault, track := some (stationTrack st s), station := some st, unit := none, pid := some r.pid,
           detail := some (BitVec.ofNat 64 detail) } q.1, q.2)

/-- The speed a distance PAUSE is computed from (R83): the passage's estimate as it stands, or the test speed. -/
def pauseSpeed (r : Run) (s : State) : Nat :=
  match r.testSpeed with
  | some v => v
  | none => ((passageOf r.pid s).bind Passage.estimate).getD r.speed

/-- How long a PAUSE lasts, in us (R83). -/
def pauseLength (form : PauseForm) (amount : Nat) (r : Run) (s : State) : Nat :=
  match form with
  | .time => amount
  | .distance => amount * 1000000 / pauseSpeed r s

/-- A flash request of an EXPOSE step (R81, R105). -/
def flashRequestOf (st : StationId) (r : Run) (length intensity : Nat) (mask : BitVec 6) (wait : Nat) (s : State) :
    FlashRequest :=
  { station := st, number := r.exposures.length + 1, mask := mask,
    usable := mask &&& (match s.stations[st].plan with | some p => p.strobeMask | none => 0),
    intensity := intensity, length := length, deadline := plusUs s.gantryTime wait }

/-- An EXPOSE step (R81). -/
def stepExpose (st : StationId) (r : Run) (length intensity : Nat) (mask : BitVec 6) (wait : Nat) (s : State) :
    State × List Task :=
  if 8 ≤ r.exposures.length then runFault st r r.index.val s
  else if intensity = 0 then (beginExposure st length none false s, [])
  else
    (requestFlash (flashRequestOf st r length intensity mask wait s)
      (modRun st (fun r => { r with wait := .flash }) s), [])

/-- A REPEAT step (R84). -/
def stepLoop (st : StationId) (r : Run) (target : StepId) (count : Nat) (s : State) : State × List Task :=
  match r.loop with
  | none => (modRun st (fun x => { x with loop := some (r.index, count), index := target }) s, [.step st])
  | some (i, left) =>
    if i = r.index then
      if 1 < left then
        (modRun st (fun x => { x with loop := some (r.index, left - 1), index := target }) s, [.step st])
      else stepDone st r (modRun st (fun x => { x with loop := none }) s)
    else runFault st r r.index.val s

/-- A MARK step (R85): every named station but the running one takes the mark, in station order (DESIGN CHOICE, log 46), then
the run goes on. -/
def stepMark (st : StationId) (r : Run) (mask : Byte) (s : State) : State × List Task :=
  let q := stepDone st r s
  (q.1, (namedOthers mask st).map (fun x => .deliver x { sender := st, pid := r.pid }) ++ q.2)

/-- An AWAIT step (R86). -/
def stepAwait (st : StationId) (r : Run) (mask : Byte) (timeout : Nat) (s : State) : State × List Task :=
  let senders := namedOthers mask st
  if awaitComplete senders r.pid s.stations[st].marks then
    stepDone st r (modStation st (fun x => { x with marks := consumeMarks senders r.pid x.marks }) s)
  else (modRun st (fun x => { x with wait := .await (plusUs s.gantryTime timeout) }) s, [])

/-- The runner takes the step at the step index (R80). -/
def takeStep (st : StationId) (s : State) : State × List Task :=
  match s.stations[st].run with
  | none => (s, [])
  | some r =>
    if s.stations[st].state = .running ∧ r.wait = .none then
      match currentStep r s with
      | none => runFault st r 0 s
      | some (.expose length intensity mask wait) => stepExpose st r length intensity mask wait s
      | some (.pause form amount) =>
        (modRun st (fun x => { x with wait := .pause (plusUs s.gantryTime (pauseLength form amount r s)) }) s, [])
      | some (.loop target count) => stepLoop st r target count s
      | some (.mark mask) => stepMark st r mask s
      | some (.await mask timeout) => stepAwait st r mask timeout s
      | some .finish => endSteps st s
    else (s, [])

/-- The senders of the AWAIT a station's run is waiting in. -/
def awaitedSenders (st : StationId) (s : State) : Option (List StationId) :=
  match s.stations[st].run with
  | none => none
  | some r =>
    match r.wait, currentStep r s with
    | .await _, some (.await mask _) => some (namedOthers mask st)
    | _, _ => none

/-- A station takes a mark in any state; a waiting AWAIT is tested (R85, R86). -/
def deliverMark (st : StationId) (m : Mark) (s : State) : State × List Task :=
  let s := modStation st (fun x => { x with marks := takeMark m x.marks }) s
  match s.stations[st].run, awaitedSenders st s with
  | some r, some senders =>
    if awaitComplete senders r.pid s.stations[st].marks then
      stepDone st r (modStation st (fun x => { x with marks := consumeMarks senders r.pid x.marks }) s)
    else (s, [])
  | _, _ => (s, [])

/-! ## Close-out (R90, R94) -/

def RunOutcome.capture : RunOutcome → CaptureOutcome
  | .done => .done
  | .faulted => .faulted
  | .abandoned => .abandoned

/-- The capture record of a run (R94). -/
def runRecord (st : StationId) (r : Run) : CaptureRecord :=
  { pid := r.pid, sighting := r.sighting, station := st, track := r.track, dir := r.dir, headClass := r.headClass,
    topBeam := r.topBeam, speed := some r.speed, due := r.due, start := some r.start, outcome := r.outcome.capture,
    unsynced := r.unsynced, exposures := r.exposures }

/-- The rest timer started on an entry to IDLE; not started with a rest delay of 0 (R72). -/
def restTimerOf (st : StationId) (s : State) : Option Time :=
  match s.stations[st].plan with
  | none => none
  | some p => if p.restS = 0 then none else some (plusUs s.gantryTime (secondsUs p.restS))

/-- A station enters IDLE and tells the planner (R72, R73, R90). -/
def enterIdle (st : StationId) (s : State) : State × List Task :=
  (modStation st (fun x => { x with state := .idle, wakeTimer := none, restTimer := restTimerOf st s }) s, [.offer st])

/-- The close-out of a run whose station is ENDING or OFFLINE and none of whose exposures is PENDING (R90). -/
def closeOut (st : StationId) (s : State) : State × List Task :=
  match s.stations[st].run with
  | none => (s, [])
  | some r =>
    if (s.stations[st].state = .ending ∨ s.stations[st].state = .offline) ∧
        r.exposures.all (fun e => e.outcome != .pending) = true then
      let s := (handRecord (.capture (runRecord st r)) s).1
      let s := if r.pid = 0 then testEnded st (outcomeByte r.outcome.capture r.unsynced) r.exposures.length s
        else account r.pid r.sighting s
      if s.device = .failed then (s, [])
      else
        let s := modStation st (fun x => { x with run := none }) s
        if s.stations[st].state = .ending then enterIdle st s else (s, [])
    else (s, [])

/-! ## Offers and the hand-over (R58, R59, R79) -/

/-- A station's earliest request: the one of the station that stands first in the schedule (R58). -/
def earliestOf (st : StationId) (s : State) : Option Request := s.schedule.find? fun r => r.station == st

/-- The run context at the hand-over (R59, R78). -/
def runOf (r : Request) (s : State) : Run :=
  { pid := r.pid, sighting := r.sighting, program := r.program, due := r.due, start := s.gantryTime,
    track := requestTrack r s, dir := (passageOf r.pid s).map Passage.dir,
    headClass := (sightingOf r s).bind Sighting.headClass, topBeam := (sightingOf r s).map Sighting.topBeam,
    speed := match r.testSpeed with
      | some v => v
      | none => ((passageOf r.pid s).bind Passage.estimate).getD 0
    testSpeed := r.testSpeed, index := 0, loop := none, exposures := [], wait := .none, outcome := .done,
    unsynced := false }

/-- A request is handed to its station, which enters RUNNING (R59). A program NOT LOADED faults the run at its first step
with detail 0 (R79). -/
def handOver (r : Request) (s : State) : State × List Task :=
  (modStation r.station (fun x => { x with state := .running, restTimer := none, run := some (runOf r s) })
    (unschedule r s), [.step r.station])

/-- The planner offers a station its earliest request; an IDLE station takes it when it is due and has not lapsed
(R58, R60). An IDLE notice taken in the very microsecond of the lapse finds it lapsed (DESIGN CHOICE, log 36). -/
def offer (st : StationId) (s : State) : State × List Task :=
  match earliestOf st s with
  | none => (s, [])
  | some r =>
    if s.stations[st].state = .idle ∧ reached r.due s.gantryTime = true ∧ r.lapsed s.gantryTime = false
    then handOver r s else (s, [])

/-! ## The tasks of an event -/

def handleTask (t : Task) (s : State) : State × List Task :=
  match t with
  | .step st => takeStep st s
  | .deliver st m => deliverMark st m s
  | .closeOut st => closeOut st s
  | .offer st => offer st s

/-- The tasks are handled depth first, at most `n` of them; tasks left over are kept in `undone` and handled before the
next event (log 13). -/
def drainTo : Nat → List Task → State → State
  | _, [], s => s
  | 0, t :: ts, s => { s with undone := s.undone ++ t :: ts }
  | n + 1, t :: ts, s =>
    let r := handleTask t s
    drainTo n (r.2 ++ ts) r.1

/-- More tasks than one event can need: 8,192 for each request of the schedule and each station, twice over (log 13). -/
def workBound (s : State) : Nat := 8192 * (s.schedule.length + 16)

def drain (ts : List Task) (s : State) : State := drainTo (workBound s) ts s

end Sys2Proof.Machine
end

