-- ==== Sys2Proof/Machine/Settle.lean ====
section
/-! DEFINITION. What follows an event: a parked DRAIN is judged again (R151, R189), STOPPING ends when its test holds
(R201), and a device that entered FAILED within the event is left with every block's work dropped (R202). -/

namespace Sys2Proof.Machine

open Sys2Proof

/-- Some exposure of some station's run is PENDING. -/
def anyPending (s : State) : Bool :=
  allStations.any fun st =>
    match s.stations[st].run with
    | none => false
    | some r => r.exposures.any fun e => e.outcome == .pending

/-- What a test of a DRAIN's condition gives (R151). -/
inductive DrainVerdict where
  | failed (card : Addr)
  | done
  | wait
deriving DecidableEq, Repr

/-- The five things that hold together when a DRAIN ends DONE (R151). -/
def drained (s : State) : Bool :=
  s.mover.queue.isEmpty && s.mover.current.isNone && !anyPending s && s.mover.condition != .held && s.writer.held.isEmpty

/-- The test of a DRAIN's condition (R151). -/
def drainVerdict (s : State) : DrainVerdict :=
  match s.mover.drainContext with
  | some a => .failed a
  | none => if drained s then .done else .wait

/-- A DRAIN that failed reports the address of the failed card (R189, 11.3). -/
def drainFailed (card : Addr) : OrderResult := .refused .failed (le 8 card.toNat)

/-- A parked DRAIN finishes at the first test that gives an end (R189). -/
def settleDrain (s : State) : State :=
  if s.engine.parked.any fun p => p.waits == .drain then
    match drainVerdict s with
    | .failed a => finishParked .drain (drainFailed a) (modMover (fun m => { m with drainContext := none }) s)
    | .done => finishParked .drain (.ok []) s
    | .wait => s
  else s

/-- Some station holds a run. -/
def anyRun (s : State) : Bool := allStations.any fun st => s.stations[st].run.isSome

/-- The three things that hold together when STOPPING ends (R201). -/
def stopped (s : State) : Bool :=
  (allContexts.all fun k => s.passages[k].isNone) && !anyRun s && s.mover.queue.isEmpty && s.mover.current.isNone

/-- STOPPING ends, and the device enters READY (R201). -/
def settleStopping (s : State) : State :=
  if s.device = .stopping ∧ stopped s = true then { s with device := .ready } else s

/-- The tests made again at the end of an event and after each order (log 15). -/
def settle (s : State) : State := settleStopping (settleDrain s)

/-- The end of an event: the tests of `settle`, or, in FAILED, every block's work dropped (log 16). -/
def conclude (s : State) : State :=
  let s := if s.device = .failed then s else settle s
  if s.device = .failed then hush s else s

/-- Internal notices that an earlier event left over are handled first; the work bound leaves none (log 13). -/
def catchUp (s : State) : State :=
  match s.undone with
  | [] => s
  | ts =>
    let t := drain ts { s with undone := [] }
    if t.device = .failed then hush t else t

/-- The state in which an event is taken. -/
def taken (m : Moment) (s : State) : State := catchUp (arrive m s)

/-- An event taken at its Moment. In FAILED it reaches no block (R202). -/
def event (m : Moment) (effect : State → State) (s : State) : Host.Outcome State Fault Refusal :=
  let s := taken m s
  .next (if s.device = .failed then s else conclude (effect s))

/-- An event that raises no cause and can end neither a DRAIN nor STOPPING. -/
def plainEvent (m : Moment) (effect : State → State) (s : State) : Host.Outcome State Fault Refusal :=
  let s := taken m s
  .next (if s.device = .failed then s else effect s)

end Sys2Proof.Machine
end

