-- ==== Sys2Proof/Machine/Stations.lean ====
section
/-! DEFINITION. The station runners (04): rest and wake, the entry into OFFLINE, aborts, the reports of tile outcomes, and
the commands of the stations and of the strobe bank (05). -/

namespace Sys2Proof.Machine

open Sys2Proof

/-! ## Rest and wake (R72, R73) -/

def wakeLimitMs (st : StationId) (s : State) : Nat :=
  match s.stations[st].plan with
  | none => 0
  | some p => p.wakeMs

/-- A station enters WAKING with the wake command sent and the wake limit timer started (R71, R73). -/
def enterWaking (st : StationId) (s : State) : State :=
  emit (.wake st) (modStation st (fun x => { x with
    state := .waking, restTimer := none, wakeTimer := some (plusUs s.gantryTime (millisUs (wakeLimitMs st s))) }) s)

/-- A station enters RESTING with the standby command sent and its timers stopped (R71, R72, R76). -/
def enterResting (st : StationId) (s : State) : State :=
  emit (.standby st) (modStation st (fun x => { x with state := .resting, restTimer := none, wakeTimer := none }) s)

/-- A station outside the group {RESTING, OFFLINE} enters RESTING, and the arbiter is told (R72, R77). -/
def goToRest (st : StationId) (s : State) : State := stationRests st (enterResting st s)

/-- The rest timer is restarted with the full rest delay, if it runs (R73). -/
def restartRest (st : StationId) (s : State) : State :=
  modStation st (fun x => { x with restTimer := if x.restTimer.isSome then restTimerOf st s else none }) s

/-- A wake notice (R73). -/
def wakeNotice (st : StationId) (s : State) : State :=
  match s.stations[st].state with
  | .resting => stationWakes st (enterWaking st s)
  | .idle => restartRest st s
  | .offline => s
  | .waking => s
  | .running => s
  | .ending => s

/-! ## Exposure outcomes (R89) -/

/-- The exposure entry of a number. -/
def exposureOf (st : StationId) (number : Nat) (s : State) : Option Exposure :=
  match s.stations[st].run with
  | none => none
  | some r => if number = 0 then none else r.exposures[number - 1]?

/-- An update of the exposure entry of a number. -/
def modExposure (st : StationId) (number : Nat) (f : Exposure → Exposure) (s : State) : State :=
  if number = 0 then s
  else modRun st (fun r => { r with exposures := r.exposures.modify (number - 1) f }) s

/-- The camera port tells the run that a frame has been received for an exposure (R89). -/
def frameReceived (st : StationId) (number : Nat) (s : State) : State :=
  modExposure st number (fun e => { e with received := true }) s

/-- What a report of a tile outcome carries (R89). -/
structure TileReport where
  outcome   : TileOutcome
  card      : Option Addr
  length    : Option Nat
  clipped   : Bool
  truncated : Bool
deriving DecidableEq, Repr

def TileReport.plain (outcome : TileOutcome) (clipped : Bool) : TileReport :=
  { outcome := outcome, card := none, length := none, clipped := clipped, truncated := false }

/-- An entry takes the report. -/
def Exposure.take (rep : TileReport) (e : Exposure) : Exposure :=
  { e with outcome := rep.outcome, card := rep.card, tileLength := rep.length, clipped := rep.clipped,
           truncated := rep.truncated }

/-- A report for a PENDING entry sets it, and closes out the run if it leaves none PENDING; a report for any other entry
changes nothing (R89). -/
def reportTile (st : StationId) (number : Nat) (rep : TileReport) (s : State) : State :=
  match exposureOf st number s with
  | none => s
  | some e =>
    if e.outcome = .pending then drain [.closeOut st] (modExposure st number (Exposure.take rep) s) else s

/-! ## Aborts (R92) -/

/-- The run under an abort: outcome ABANDONED unless a fault or an abort came before; no step wait, even where its exposure
stays open (DESIGN CHOICE, log 54). -/
def Run.abort (r : Run) : Run :=
  { r with wait := .none, outcome := if r.outcome = .done then .abandoned else r.outcome }

/-- An abort of the run a station holds (R92). A waiting flash request is withdrawn (R111); an open exposure stays open. -/
def abortRun (st : StationId) (s : State) : State :=
  match s.stations[st].run with
  | none => s
  | some r =>
    modStation st (fun x => { x with
        state := if x.state = .running then .ending else x.state, run := some r.abort })
      (if r.wait = .flash then dropFlash st s else s)

/-- An abort naming a passage id reaches every station runner (R92), in station order (DESIGN CHOICE, log 35). -/
def abortPassage (pid : PassageId) (s : State) : State :=
  allStations.foldl (fun s st =>
    match s.stations[st].run with
    | none => s
    | some r => if r.pid = pid then drain [.closeOut st] (abortRun st s) else s) s

/-! ## The entry into OFFLINE (R74) -/

/-- Exposures whose frame has not been received take TIMED OUT (R74). -/
def Exposure.giveUp (e : Exposure) : Exposure :=
  if e.outcome = .pending ∧ e.received = false then { e with outcome := .timedOut } else e

/-- The planner removes every request of the station as MISSED(OFFLINE) (R57). -/
def stationOffline (st : StationId) (s : State) : State :=
  missAll .offline (s.schedule.filter fun r => r.station == st) s

/-- The entry into OFFLINE: the run aborted and closed out, the port's awaited list emptied (R124), the planner and the
arbiter told (R74). -/
def enterOffline (st : StationId) (s : State) : State :=
  let s := modStation st (fun x => { x with state := .offline, restTimer := none, wakeTimer := none }) s
  let s := modRun st (fun r => { r with exposures := r.exposures.map Exposure.giveUp }) (abortRun st s)
  let s := modPort st (fun p => { p with awaited := [] }) s
  let s := drain [.closeOut st] s
  stationRests st (stationOffline st s)

/-- CAMERA_SILENT and its STOP action (R74, R123): the cause is raised before the entry into OFFLINE (DEDUCED, log 37). -/
def cameraSilent (st : StationId) (s : State) : State :=
  enterOffline st (raise
    { code := .cameraSilent, track := some (stationTrack st s), station := some st, unit := none, pid := none,
      detail := none } s)

/-! ## The commands of the stations -/

/-- A ready answer (R73, R119). -/
def takeReadyAnswer (st : StationId) (s : State) : State :=
  if s.ports[st].configured = true ∧ s.stations[st].state = .waking then
    let q := enterIdle st s
    drain q.2 q.1
  else s

/-- READY_ANSWER. -/
def execReadyAnswer (m : Moment) (st : StationId) (s : State) : Host.Outcome State Fault Refusal :=
  event m (takeReadyAnswer st) s

/-- REST_TIMER_EXPIRY (R72). -/
def execRestTimerExpiry (m : Moment) (st : StationId) (s : State) : Host.Outcome State Fault Refusal :=
  plainEvent m (fun s =>
    if s.stations[st].state = .idle ∧ expired s.stations[st].restTimer s.gantryTime = true then goToRest st s else s) s

/-- WAKE_LIMIT_EXPIRY (R74). -/
def execWakeLimitExpiry (m : Moment) (st : StationId) (s : State) : Host.Outcome State Fault Refusal :=
  event m (fun s =>
    if s.stations[st].state = .waking ∧ expired s.stations[st].wakeTimer s.gantryTime = true then cameraSilent st s
    else s) s

/-- The frame timeout of a station, in us. -/
def frameTimeoutUs (st : StationId) (s : State) : Nat :=
  match s.stations[st].plan with
  | none => 0
  | some p => millisUs p.frameTimeout

/-- The awaited entry of an exposure that has ended becomes WAITING with its frame timer started (R121). -/
def startFrameTimer (st : StationId) (e : OpenExposure) (s : State) : State :=
  modPort st (fun p => { p with
    awaited := p.awaited.map fun a =>
      if a.number = e.number ∧ a.phase = .opened
      then { a with phase := .waiting (plusUs e.finish (frameTimeoutUs st s)) } else a }) s

/-- The run goes on to its next step when it waited for the exposure that has ended (R82). -/
def exposureStepDone (st : StationId) (e : OpenExposure) (s : State) : State :=
  match s.stations[st].run with
  | none => s
  | some r =>
    if r.wait = .exposure e.finish then
      let q := stepDone st r s
      drain q.2 q.1
    else s

/-- The exposure in a station's place ends (R82, R112, R121). -/
def endInPlace (st : StationId) (s : State) : State :=
  match s.openExposures[st] with
  | none => s
  | some e =>
    if reached e.finish s.gantryTime then
      exposureStepDone st e (startFrameTimer st e (arbitrationPass (setOpenExposure st none s)))
    else s

/-- An exposure of a closed-out run of the station that has reached its end beside a later one (log 22). -/
def lingeringEnd (st : StationId) (s : State) : Option Lingering :=
  s.lingering.find? fun x => x.station == st && reached x.finish s.gantryTime

/-- An exposure of a station ends. That of a closed-out run beside a later one closes, and an arbitration pass is made
(R112); no run waits on it and no awaited entry is left of it (R121). -/
def endExposure (st : StationId) (s : State) : State :=
  match lingeringEnd st s with
  | some x => arbitrationPass { s with lingering := s.lingering.erase x }
  | none => endInPlace st s

/-- EXPOSURE_END. -/
def execExposureEnd (m : Moment) (st : StationId) (s : State) : Host.Outcome State Fault Refusal :=
  event m (endExposure st) s

/-- PAUSE_END (R83). -/
def execPauseEnd (m : Moment) (st : StationId) (s : State) : Host.Outcome State Fault Refusal :=
  event m (fun s =>
    match s.stations[st].run with
    | none => s
    | some r =>
      match r.wait with
      | .pause finish =>
        if reached finish s.gantryTime then
          let q := stepDone st r s
          drain q.2 q.1
        else s
      | _ => s) s

/-- The station mask of senders (R87). -/
def maskOf (sts : List StationId) : Nat := (sts.map fun x => 2 ^ x.val).sum

/-- An AWAIT times out (R87). -/
def awaitTimedOut (st : StationId) (r : Run) (senders : List StationId) (s : State) : State :=
  let missing := senders.filter fun x => !s.stations[st].marks.contains { sender := x, pid := r.pid }
  let s := modRun st (fun r => { r with unsynced := true }) s
  let s := raise { code := .awaitTimeout, track := some (stationTrack st s), station := some st, unit := none,
                   pid := some r.pid, detail := some (BitVec.ofNat 64 (maskOf missing)) } s
  let q := stepDone st r (modStation st (fun x => { x with marks := consumeMarks senders r.pid x.marks }) s)
  drain q.2 q.1

/-- AWAIT_TIMER_EXPIRY. -/
def execAwaitTimerExpiry (m : Moment) (st : StationId) (s : State) : Host.Outcome State Fault Refusal :=
  event m (fun s =>
    match s.stations[st].run, awaitedSenders st s with
    | some r, some senders =>
      match r.wait with
      | .await expiry => if reached expiry s.gantryTime then awaitTimedOut st r senders s else s
      | _ => s
    | _, _ => s) s

/-! ## The commands of the strobe bank -/

/-- STROBE_READY (R100). -/
def execStrobeReady (m : Moment) (u : UnitId) (s : State) : Host.Outcome State Fault Refusal :=
  plainEvent m (fun s =>
    if s.units[u].state = .charging
    then arbitrationPass (modUnit u (fun x => { x with state := .ready, rechargeTimer := none }) s) else s) s

/-- A unit has not become ready within its recharge limit (R101). -/
def strobeSilent (u : UnitId) (s : State) : State :=
  raise { code := .strobeSilent, track := none, station := none, unit := some u, pid := none,
          detail := some (BitVec.ofNat 64 s.units[u].rechargeMs) }
    (modUnit u (fun x => { x with state := .out, supply := false, rechargeTimer := none }) s)

/-- RECHARGE_TIMER_EXPIRY. -/
def execRechargeTimerExpiry (m : Moment) (u : UnitId) (s : State) : Host.Outcome State Fault Refusal :=
  event m (fun s =>
    if s.units[u].state = .charging ∧ expired s.units[u].rechargeTimer s.gantryTime = true then strobeSilent u s
    else s) s

/-- A pulse ends (R109). -/
def endPulse (u : UnitId) (s : State) : State :=
  modUnit u (fun x =>
    let x := { x with fireLine := false, firing := none, pulseEnd := none }
    if unused u s then x.rest else x.charge s.gantryTime) s

/-- PULSE_END. -/
def execPulseEnd (m : Moment) (u : UnitId) (s : State) : Host.Outcome State Fault Refusal :=
  plainEvent m (fun s =>
    if s.units[u].state = .firing ∧ expired s.units[u].pulseEnd s.gantryTime = true then endPulse u s else s) s

/-- FLASH_DEADLINE (R110): the first waiting request whose deadline has come (log 23). -/
def execFlashDeadline (m : Moment) (s : State) : Host.Outcome State Fault Refusal :=
  event m (fun s =>
    match s.waiting.find? fun r => reached r.deadline s.gantryTime with
    | none => s
    | some r => denyFlash r s) s

end Sys2Proof.Machine
end

