-- ==== Sys2Proof/Machine/Planner.lean ====
section
/-! DEFINITION. The shot planner (03): due times, placing, planning a sighting, re-planning, removals, due expiries and
lapses, test requests. -/

namespace Sys2Proof.Machine

open Sys2Proof

/-! ## The order of the schedule (R47) -/

/-- `q` stands before a request placed now: by due time, then by station, then by placement. -/
def standsBefore (q r : Request) : Bool :=
  earlier q.due r.due || (q.due == r.due && decide (q.station.val ≤ r.station.val))

/-- A request is placed at its place in the order. -/
def placeInOrder (r : Request) : List Request → List Request
  | [] => [r]
  | q :: rest => if standsBefore q r then q :: placeInOrder r rest else r :: q :: rest

/-- A request joins the schedule; the due timer is set afresh (R47, R62). -/
def placeRequest (r : Request) (s : State) : State := setSchedule (placeInOrder r s.schedule) s

/-! ## Serving and due time (R49, R50) -/

/-- The travel distance from the curtain to a station (00, "Station offsets and travel distance"). -/
def travelDistance (d : Direction) (p : StationPlan) : Int :=
  match d with
  | .up => p.offset
  | .down => - p.offset

/-- A station's program for a direction. -/
def programFor (d : Direction) (p : StationPlan) : Option ProgramId :=
  match d with
  | .up => p.programUp
  | .down => p.programDown

/-- A station's plan entry serves a direction. -/
def servesDirection (d : Direction) (p : StationPlan) : Bool :=
  match d with
  | .up => p.servesUp
  | .down => p.servesDown

/-- A station serves a sighting of a passage on track `t` (R49). -/
def serves (t : TrackId) (d : Direction) (p : StationPlan) : Bool :=
  p.track == t && servesDirection d p && decide (0 < travelDistance d p)

/-- The curtain time of a sighting (R50): the middle of its enter and leave times. -/
def curtainTime (enter leave : Time) : Time := plusUs enter (elapsed enter leave / 2)

/-- The due time of a request (R50): below 0 is taken as 0. -/
def dueTime (enter leave : Time) (d : Direction) (p : StationPlan) (speed : Nat) : Time :=
  BitVec.ofNat 48 ((curtainTime enter leave).toNat + (travelDistance d p).toNat * 1000000 / speed - p.lead)

/-- The request a sighting yields at a station, where the station serves it with a program. -/
def requestAt (p : Passage) (x : Sighting) (number speed : Nat) (st : StationId) (s : State) : Option Request :=
  match s.stations[st].plan with
  | none => none
  | some plan =>
    if serves p.track p.dir plan then
      (programFor p.dir plan).map fun program =>
        { pid := p.id, sighting := number, station := st, program := program,
          due := dueTime x.enter x.leave p.dir plan speed, tolerance := plan.tolerance, testSpeed := none }
    else none

/-! ## Planning (R51) -/

def maxRequests : Nat := 48

/-- SCHEDULE_FULL (R51, R64). -/
def scheduleFull (r : Request) (s : State) : State :=
  raise { code := .scheduleFull, track := some (requestTrack r s), station := some r.station, unit := none,
          pid := some r.pid, detail := some (BitVec.ofNat 64 maxRequests) } s

/-- One planned station is taken through the checks of R51; the placed requests are kept. -/
def planRequest (r : Request) (q : State × List Request) : State × List Request :=
  let s := q.1
  if r.lapsed s.gantryTime then (declareMiss false .late r s, q.2)
  else if s.stations[r.station].state = .offline then (declareMiss false .offline r s, q.2)
  else if maxRequests ≤ s.schedule.length then (declareMiss false .notPlanned r (scheduleFull r s), q.2)
  else (placeRequest r s, q.2 ++ [r])

/-- The planner's answer is applied to a sighting (R33). -/
def Sighting.answer (n : Nat) (x : Sighting) : Sighting :=
  { x with openRequests := n, state := if n = 0 then .accounted else .planned }

/-- The planner's answer is applied to the passage (R33). -/
def Passage.answer (number n : Nat) (p : Passage) : Passage :=
  { p with
    sightings := p.sightings.map fun x => if x.number == some number then x.answer n else x
    outstanding := p.outstanding + n }

/-- The offers of a placement (R58): of the requests just placed, those that are due and their station's earliest. -/
def placedOffers (placed : List Request) (s : State) : List Task :=
  (placed.filter fun r => reached r.due s.gantryTime && earliestOf r.station s == some r).map fun r => .offer r.station

/-- A plan request for a sighting of the passage in a context (R33, R49, R51). Requests placed already due are offered
once the tracker has taken the answer (R58, log 12), and until then count among the 48 (DESIGN CHOICE, log 53). -/
def planSighting (k : ContextId) (number : Nat) (s : State) : State :=
  match s.passages[k] with
  | none => s
  | some p =>
    match p.sightings.find? fun x => x.number == some number with
    | none => s
    | some x =>
      let requests := allStations.filterMap fun st => requestAt p x number (x.speed.getD 0) st s
      let q := requests.foldl (fun q r => planRequest r q) (s, [])
      let s := modPassage k (Passage.answer number q.2.length) q.1
      drain (placedOffers q.2 s) s

/-! ## Offers in schedule order (R58) -/

/-- An offer for each due request, in schedule order. -/
def dueOffers (s : State) : List Task :=
  (s.schedule.filter fun r => reached r.due s.gantryTime).map fun r => .offer r.station

/-! ## Re-planning (R54, R55) -/

/-- A waiting request of the passage takes its new due time. -/
def Request.replan (p : Passage) (speed : Nat) (s : State) (r : Request) : Request :=
  match p.sightings.find? (fun x => x.number == some r.sighting), s.stations[r.station].plan with
  | some x, some plan => { r with due := dueTime x.enter x.leave p.dir plan speed }
  | _, _ => r

/-- The re-plan of a passage's waiting requests (R55): new due times, the late ones missed in schedule order, the others
placed again, offers. The due timer is set afresh at the end of the placing, from where it stood before (R62); the lapses
of the late ones never set it. -/
def replanAll (p : Passage) (speed : Nat) (s : State) : State :=
  let timer := s.dueTimer
  let s := { s with schedule := s.schedule.map fun r => if r.pid == p.id then r.replan p speed s else r }
  let s := missAll .late (s.schedule.filter fun r => r.pid == p.id && r.lapsed s.gantryTime) s
  let mine := s.schedule.filter fun r => r.pid == p.id
  let others := s.schedule.filter fun r => !(r.pid == p.id)
  let s := setSchedule (mine.foldl (fun l r => placeInOrder r l) others) { s with dueTimer := timer }
  drain (dueOffers s) s

/-- A speed revision (R54): for a passage with no request in the schedule it changes nothing. -/
def revise (k : ContextId) (speed : Nat) (s : State) : State :=
  match s.passages[k] with
  | none => s
  | some p => if s.schedule.any fun r => r.pid == p.id then replanAll p speed s else s

/-! ## Removals (R56, R65) -/

/-- The offers after a removal (R58), in schedule order (DESIGN CHOICE, log 50): the due requests that the removal has made
their station's earliest. -/
def freedOffers (before s : State) : List Task :=
  (s.schedule.filter fun r => reached r.due s.gantryTime && earliestOf r.station s == some r &&
    earliestOf r.station before != some r).map fun r => .offer r.station

/-- A removal of every waiting request of a passage (R56), or, with passage id 0, of every test request (R65); then the
requests that waited behind the removed ones are offered (R58, log 50). -/
def removal (pid : PassageId) (reason : MissReason) (s : State) : State :=
  let t := missAll reason (s.schedule.filter fun r => r.pid == pid) s
  drain (freedOffers s t) t

/-! ## Due expiries and lapses (R58, R61, R62) -/

/-- The miss reason at a lapse, by the state of the station (R61). An OFFLINE station has no waiting request (R57). -/
def lapseReason (st : StationId) (s : State) : MissReason :=
  match s.stations[st].state with
  | .resting => .waking
  | .waking => .waking
  | .offline => .offline
  | .idle => .busy
  | .running => .busy
  | .ending => .busy

/-- The expiry of the due timer is taken: the lapsed requests are removed, the due ones offered, the timer is set afresh
(R62). -/
def dueExpiry (s : State) : State :=
  let lapsed := s.schedule.filter fun r => r.lapsed s.gantryTime
  let s := lapsed.foldl (fun s r => missAll (lapseReason r.station s) [r] s) { s with dueTimer := none }
  freshDueTimer (drain (dueOffers s) s)

/-- DUE_TIMER_EXPIRY. -/
def execDueTimerExpiry (m : Moment) (s : State) : Host.Outcome State Fault Refusal :=
  event m (fun s => if expired s.dueTimer s.gantryTime then dueExpiry s else s) s

/-! ## Test requests (R64) -/

/-- The test request of an accepted TEST SHOT. -/
def testRequest (st : StationId) (program : ProgramId) (speed : Nat) (s : State) : Request :=
  { pid := 0, sighting := 0, station := st, program := program, due := s.gantryTime,
    tolerance := match s.stations[st].plan with | some p => p.tolerance | none => 0
    testSpeed := some speed }

/-- Steps 4 and 5 of R64: the request is declared missed with the schedule full, or placed, its resting station woken,
and offered. -/
def placeTest (r : Request) (s : State) : State :=
  if maxRequests ≤ s.schedule.length then declareMiss false .notPlanned r (scheduleFull r s)
  else
    let s := placeRequest r s
    let s := if s.stations[r.station].state = .resting then wakeNotice r.station s else s
    drain (placedOffers [r] s) s

end Sys2Proof.Machine
end

