-- ==== Sys2Proof/Machine/Passages.lean ====
section
/-! DEFINITION. The passage tracker (02): opening, wheel notices, measurements, objects and sightings, the four ways a
passage ends. -/

namespace Sys2Proof.Machine

open Sys2Proof

/-- The track's silence limit in us. -/
def silenceUs (t : TrackId) (s : State) : Nat := secondsUs s.tracks[t].plan.silenceS

/-! ## Opening (R22, R23, R24) -/

/-- The id after an id: after 65,535 the next is 1 (R22). -/
def nextId (id : PassageId) : PassageId := if id + 1 = 0 then 1 else id + 1

/-- The first id from `id` on that no context holds; eight contexts hold at most eight (R22). -/
def unusedId : Nat → PassageId → State → PassageId
  | 0, id, _ => id
  | n + 1, id, s => if (contextOf id s).isSome then unusedId n (nextId id) s else id

/-- How many contexts hold a passage of the track. -/
def trackPassages (t : TrackId) (s : State) : Nat :=
  (allContexts.filter fun k => match s.passages[k] with | none => false | some p => p.track == t).length

/-- The context an opening takes: the lowest-numbered FREE one; none when the opening is refused (R23). -/
def openingContext (t : TrackId) (s : State) : Option ContextId :=
  if 2 ≤ trackPassages t s then none else allContexts.find? fun k => s.passages[k].isNone

/-- A context at its opening (R21, R24). -/
def openedPassage (id : PassageId) (t : TrackId) (d : Direction) (time : Time) (s : State) : Passage :=
  { id := id, track := t, dir := d, state := .measuring, openTime := time, lastPulse := time, estimate := none,
    minSpeed := none, maxSpeed := none, axles := 0, sightings := [], overflow := 0, roofItems := 0, unpaired := 0,
    implausible := 0, outstanding := 0, tail := some { kind := .silence, expiry := plusUs time (silenceUs t s) },
    close := none }

/-- Wake notices go to every station whose plan entry names the track (R24), in station order (DESIGN CHOICE, log 44). -/
def wakeTrack (t : TrackId) (s : State) : State :=
  allStations.foldl (fun s st =>
    match s.stations[st].plan with
    | none => s
    | some p => if p.track = t then wakeNotice st s else s) s

/-- A passage is opened in a context, with the id it takes (R22-R24). -/
def openPassage (k : ContextId) (t : TrackId) (d : Direction) (time : Time) (s : State) : State × PassageId :=
  let id := unusedId 9 s.nextPassageId s
  (wakeTrack t { setPassage k (some (openedPassage id t d time s)) s with nextPassageId := nextId id }, id)

/-! ## The tail timer (R35) -/

/-- Length and kind of a tail timer started or restarted now. -/
def tailLength (p : Passage) (plan : TrackPlan) : TailKind × Nat :=
  let silence := secondsUs plan.silenceS
  match p.state, p.estimate with
  | .running, some v =>
    let length := plan.tail * 1000000 / v
    if length < silence then (.tail, length) else (.silence, silence)
  | _, _ => (.silence, silence)

/-- The tail timer is restarted from the last pulse time. -/
def Passage.restartTail (plan : TrackPlan) (p : Passage) : Passage :=
  let l := tailLength p plan
  { p with tail := some { kind := l.1, expiry := plusUs p.lastPulse l.2 } }

/-! ## Wheel notices (R25-R27) -/

/-- A passage takes wheel and curtain input in MEASURING and RUNNING. -/
def Passage.isOpen (p : Passage) : Bool := p.state != .finishing

/-- The context a wheel notice reaches: the one holding the id, not in FINISHING (2.3). -/
def openContext (id : PassageId) (s : State) : Option (ContextId × Passage) :=
  match contextOf id s with
  | none => none
  | some k =>
    match s.passages[k] with
    | none => none
    | some p => if p.isOpen then some (k, p) else none

/-- The second sensor of the approach pair (R5). -/
def approachSecond : Direction → Sensor
  | .up => .uInner
  | .down => .dInner

/-- A pulse notice (R25). -/
def Passage.pulse (sensor : Sensor) (time : Time) (plan : TrackPlan) (p : Passage) : Passage :=
  Passage.restartTail plan { p with
    lastPulse := if earlier p.lastPulse time then time else p.lastPulse
    axles := if sensor = approachSecond p.dir then saturate (p.axles + 1) else p.axles }

def pulseNotice (id : PassageId) (sensor : Sensor) (time : Time) (s : State) : State :=
  match openContext id s with
  | none => s
  | some (k, p) => setPassage k (some (p.pulse sensor time s.tracks[p.track].plan)) s

/-- An unpaired notice (R26). -/
def unpairedNotice (id : PassageId) (s : State) : State :=
  match openContext id s with
  | none => s
  | some (k, p) => setPassage k (some { p with unpaired := saturate (p.unpaired + 1) }) s

/-- An implausible notice (R26). -/
def implausibleNotice (id : PassageId) (s : State) : State :=
  match openContext id s with
  | none => s
  | some (k, p) => setPassage k (some { p with implausible := saturate (p.implausible + 1) }) s

/-! ## Judging objects (R28, R30) -/

/-- The length of an object in mm (R30). -/
def objectLength (speed : Nat) (enter leave : Time) : Nat := speed * elapsed enter leave / 1000000

/-- An object of this length is a head. -/
def isHead (speed : Nat) (enter leave : Time) (s : State) : Bool :=
  within s.headMin s.headMax (objectLength speed enter leave)

/-- The class of a head (R30). -/
def headClassOf (top : Nat) (plan : TrackPlan) : HeadClass := if plan.contact ≤ top then .raised else .lowered

/-- A head as a sighting, its plan request still to come (R28, R32). -/
def newSighting (number speed : Nat) (enter leave : Time) (top : Nat) (plan : TrackPlan) : Sighting :=
  { number := some number, enter := enter, leave := leave, topBeam := top, headClass := some (headClassOf top plan),
    speed := some speed, state := .planned, openRequests := 0 }

/-- An UNTIMED entry (R31). -/
def untimedEntry (enter leave : Time) (top : Nat) : Sighting :=
  { number := none, enter := enter, leave := leave, topBeam := top, headClass := none, speed := none, state := .untimed,
    openRequests := 0 }

/-- The UNTIMED entries are classified in list order: the sightings, and the count of roof items (R28). -/
def classify (speed : Nat) (plan : TrackPlan) (s : State) : Nat → List Sighting → List Sighting × Nat
  | _, [] => ([], 0)
  | n, x :: rest =>
    if isHead speed x.enter x.leave s then
      let q := classify speed plan s (n + 1) rest
      (newSighting n speed x.enter x.leave x.topBeam plan :: q.1, q.2)
    else
      let q := classify speed plan s n rest
      (q.1, q.2 + 1)

/-- A MEASURING passage enters RUNNING (R27 step 3, R28). -/
def Passage.startRunning (speed : Nat) (plan : TrackPlan) (s : State) (p : Passage) : Passage :=
  match p.state with
  | .measuring =>
    let q := classify speed plan s 1 p.sightings
    { p with state := .running, sightings := q.1, roofItems := saturate (p.roofItems + q.2) }
  | .running => p
  | .finishing => p

/-- Steps 1 to 4 of R27. -/
def Passage.measure (speed : Nat) (plan : TrackPlan) (s : State) (p : Passage) : Passage :=
  Passage.restartTail plan (Passage.startRunning speed plan s { p with
    estimate := some speed
    minSpeed := some (min (p.minSpeed.getD speed) speed)
    maxSpeed := some (max (p.maxSpeed.getD speed) speed) })

/-- The numbers of the sightings a measurement makes: those of a passage that was MEASURING. -/
def madeNumbers (before after : Passage) : List Nat :=
  match before.state with
  | .measuring => after.sightings.filterMap Sighting.number
  | .running => []
  | .finishing => []

/-- An accepted speed measurement (R27). -/
def measurement (id : PassageId) (speed : Nat) (s : State) : State :=
  match openContext id s with
  | none => s
  | some (k, p) =>
    let q := p.measure speed s.tracks[p.track].plan s
    (madeNumbers p q).foldl (fun s n => planSighting k n s) (revise k speed (setPassage k (some q) s))

/-! ## Object reports (R29-R32) -/

/-- The track's passage in MEASURING or RUNNING (R29). -/
def trackContext (t : TrackId) (s : State) : Option ContextId :=
  allContexts.find? fun k => match s.passages[k] with | none => false | some p => p.track == t && p.isOpen

def maxSightings : Nat := 12

/-- A full sightings list refuses an object (R31, R32). -/
def sightingOverflow (k : ContextId) (p : Passage) (s : State) : State :=
  let n := saturate (p.overflow + 1)
  raise { code := .sightingOverflow, track := some p.track, station := none, unit := none, pid := some p.id,
          detail := some (BitVec.ofNat 64 n) } (setPassage k (some { p with overflow := n }) s)

/-- An object report judged in RUNNING (R30, R32). -/
def judgeObject (k : ContextId) (p : Passage) (speed : Nat) (enter leave : Time) (top : Nat) (s : State) : State :=
  if isHead speed enter leave s then
    if p.sightings.length < maxSightings then
      let number := (p.sightings.filter fun x => x.number.isSome).length + 1
      planSighting k number (setPassage k (some { p with
        sightings := p.sightings ++ [newSighting number speed enter leave top s.tracks[p.track].plan] }) s)
    else sightingOverflow k p s
  else setPassage k (some { p with roofItems := saturate (p.roofItems + 1) }) s

/-- An object report (R29-R32). -/
def objectReport (t : TrackId) (enter leave : Time) (top : Nat) (s : State) : State :=
  match trackContext t s with
  | none => s
  | some k =>
    match s.passages[k] with
    | none => s
    | some p =>
      match p.state with
      | .running => judgeObject k p (p.estimate.getD 0) enter leave top s
      | .measuring =>
        if p.sightings.length < maxSightings then
          setPassage k (some { p with sightings := p.sightings ++ [untimedEntry enter leave top] }) s
        else sightingOverflow k p s
      | .finishing => s

/-! ## Ending a passage (R36-R40) -/

/-- The unit clears its served passage and empties its queues (R5, R12, R37). -/
def clearServed (t : TrackId) (id : PassageId) (s : State) : State :=
  modTrack t (fun u =>
    match u.served with
    | none => u
    | some v => if v.id = id then { u with served := none, uQueue := [], dQueue := [] } else u) s

/-- The notices of a close reason (R37 step 4, R38-R40). The removal is taken before the aborts (DESIGN CHOICE, log 45). -/
def closeNotices (p : Passage) (reason : CloseReason) (s : State) : State :=
  match reason with
  | .cleared => s
  | .stalled =>
    removal p.id .stalled (raise { code := .passageStalled, track := some p.track, station := none, unit := none,
                                   pid := some p.id, detail := none } s)
  | .abandoned => abortPassage p.id (removal p.id .abandoned s)
  | .trackClosed => abortPassage p.id (removal p.id .abandoned s)

/-- Steps 4 and 5 of R37, the close reason being set or replaced. -/
def closeWith (p : Passage) (reason : CloseReason) (s : State) : State :=
  completeIfDone p.id (closeNotices p reason s)

/-- The entry into FINISHING (R37). -/
def enterFinishing (k : ContextId) (p : Passage) (reason : CloseReason) (s : State) : State :=
  closeWith p reason (clearServed p.track p.id
    (setPassage k (some { p with state := .finishing, close := some reason, tail := none }) s))

/-- A close reason CLEARED or STALLED is replaced (R39, R40). -/
def replaceReason (k : ContextId) (p : Passage) (reason : CloseReason) (s : State) : State :=
  closeWith p reason (setPassage k (some { p with close := some reason }) s)

/-- A passage is abandoned or closed: the effect, or none where nothing changes (R39, R40). -/
def endPassage (k : ContextId) (p : Passage) (reason : CloseReason) : Option (State → State) :=
  if p.isOpen then some (enterFinishing k p reason)
  else
    match p.close with
    | some .abandoned => none
    | some .trackClosed => none
    | some .cleared => some (replaceReason k p reason)
    | some .stalled => some (replaceReason k p reason)
    | none => some (replaceReason k p reason)

/-- The passage in a context, where it is one of the track, ends with close reason TRACK CLOSED (R40). -/
def endPassageAt (t : TrackId) (k : ContextId) (s : State) : State :=
  match s.passages[k] with
  | none => s
  | some p =>
    if p.track = t then
      match endPassage k p .trackClosed with
      | none => s
      | some f => f s
    else s

/-- Every passage of a track ends with close reason TRACK CLOSED (R40), in the order of their contexts (DESIGN CHOICE,
log 34). -/
def endTrackPassages (t : TrackId) (s : State) : State := allContexts.foldl (fun s k => endPassageAt t k s) s

/-- The tail timer of a passage expires (R36). -/
def tailExpiry (k : ContextId) (s : State) : State :=
  match s.passages[k] with
  | none => s
  | some p =>
    match p.tail with
    | none => s
    | some tail =>
      if reached tail.expiry s.gantryTime then
        enterFinishing k p (match tail.kind with | .tail => .cleared | .silence => .stalled) s
      else s

/-- TAIL_TIMER_EXPIRY. -/
def execTailTimerExpiry (m : Moment) (k : ContextId) (s : State) : Host.Outcome State Fault Refusal :=
  event m (tailExpiry k) s

end Sys2Proof.Machine
end

