-- ==== Sys2Proof/Machine/TrackInputs.lean ====
section
/-! DEFINITION. The track input units (01): wheel filters, accepted pulses, axle pairing queues, the roof curtain, and
their commands. -/

namespace Sys2Proof.Machine

open Sys2Proof

/-! ## Causes of the unit (R19) -/

/-- Every cause names the track; station and unit are absent. -/
def trackCause (code : CauseCode) (t : TrackId) (pid : Option PassageId) (detail : Option Nat) : Cause :=
  { code := code, track := some t, station := none, unit := none, pid := pid, detail := detail.map (BitVec.ofNat 64) }

/-- The id of the served passage. -/
def servedId (t : TrackId) (s : State) : Option PassageId := s.tracks[t].served.map Served.id

/-! ## The roles of the sensors (R5) -/

/-- The pair of a sensor. -/
def pairOf : Sensor → Pair
  | .uOuter => .u
  | .uInner => .u
  | .dInner => .d
  | .dOuter => .d

/-- The sensor is the first sensor of its pair for a direction. -/
def isFirst : Direction → Sensor → Bool
  | .up, .uOuter => true
  | .up, .uInner => false
  | .up, .dInner => true
  | .up, .dOuter => false
  | .down, .uInner => true
  | .down, .uOuter => false
  | .down, .dOuter => true
  | .down, .dInner => false

/-! ## Axle pairing queues (R8-R11) -/

def TrackUnit.queue (u : TrackUnit) : Pair → List Time
  | .u => u.uQueue
  | .d => u.dQueue

def TrackUnit.setQueue (u : TrackUnit) (l : List Time) : Pair → TrackUnit
  | .u => { u with uQueue := l }
  | .d => { u with dQueue := l }

def setQueue (t : TrackId) (p : Pair) (l : List Time) (s : State) : State := modTrack t (fun u => u.setQueue l p) s

/-- The spacing of a pair in mm. -/
def spacing (t : TrackId) (p : Pair) (s : State) : Nat :=
  match p with
  | .u => s.tracks[t].plan.uSpacing
  | .d => s.tracks[t].plan.dSpacing

/-- The pair window in us (R8). -/
def pairWindow (t : TrackId) (p : Pair) (s : State) : Nat := spacing t p s * 1000000 / 1389

/-- The shortest interval in us (R8). -/
def shortestInterval (t : TrackId) (p : Pair) (s : State) : Nat := spacing t p s * 1000000 / 111111

def maxSpeed : Nat := 111111

/-- The speed of an interval, in mm/s (R11). -/
def intervalSpeed (spacing interval : Nat) : Nat := min maxSpeed (spacing * 1000000 / interval)

/-- A first-sensor pulse (R8). -/
def firstPulse (t : TrackId) (p : Pair) (time : Time) (s : State) : State :=
  let q := s.tracks[t].queue p
  if q.length < 4 then setQueue t p (q ++ [time]) s
  else raise (trackCause .axleOverrun t (servedId t s) none) s

/-- WHEEL_UNPAIRED with the unpaired notice for the served passage (R9, R10). -/
def unpairedPulse (t : TrackId) (s : State) : State :=
  match servedId t s with
  | none => raise (trackCause .wheelUnpaired t none none) s
  | some id => unpairedNotice id (raise (trackCause .wheelUnpaired t (some id) none) s)

/-- The interval test (R11). -/
def testInterval (t : TrackId) (p : Pair) (id : PassageId) (interval : Nat) (s : State) : State :=
  if interval < shortestInterval t p s ∨ interval = 0 then
    implausibleNotice id (raise (trackCause .speedImplausible t (some id) (some interval)) s)
  else measurement id (intervalSpeed (spacing t p s) interval) s

/-- A second-sensor pulse (R9). -/
def secondPulse (t : TrackId) (p : Pair) (id : PassageId) (time : Time) (s : State) : State :=
  match s.tracks[t].queue p with
  | [] => unpairedPulse t s
  | first :: rest => testInterval t p id (elapsed first time) (setQueue t p rest s)

/-! ## Accepted pulses (R3, R6, R7) -/

/-- The ignore timer is started or restarted with the silence limit (R3). -/
def startIgnore (t : TrackId) (s : State) : State :=
  modTrack t (fun u => { u with state := .ignoring, ignoreTimer := some (plusUs s.gantryTime (silenceUs t s)) }) s

/-- The unit asks for a passage (R6); a refusal takes the track to IGNORING (R3). -/
def askPassage (t : TrackId) (d : Direction) (time : Time) (s : State) : State :=
  match openingContext t s with
  | none => raise (trackCause .passageRefused t none none) (startIgnore t s)
  | some k =>
    let q := openPassage k t d time s
    firstPulse t (match d with | .up => .u | .down => .d) time
      (modTrack t (fun u => { u with served := some { id := q.2, dir := d } }) q.1)

/-- A pulse on a WATCHING track without a served passage (R6). -/
def unservedPulse (t : TrackId) (w : Sensor) (time : Time) (s : State) : State :=
  match w with
  | .uOuter => askPassage t .up time s
  | .dOuter => askPassage t .down time s
  | .uInner => raise (trackCause .wheelUnpaired t none none) s
  | .dInner => raise (trackCause .wheelUnpaired t none none) s

/-- A pulse of the served passage (R7). -/
def servedPulse (t : TrackId) (w : Sensor) (v : Served) (time : Time) (s : State) : State :=
  let s := pulseNotice v.id w time s
  if isFirst v.dir w then firstPulse t (pairOf w) time s else secondPulse t (pairOf w) v.id time s

/-- An accepted pulse, by the state of the track (R3, R6, R7). -/
def acceptPulse (t : TrackId) (w : Sensor) (time : Time) (s : State) : State :=
  match s.tracks[t].state with
  | .closed => s
  | .settling => s
  | .ignoring => startIgnore t s
  | .watching =>
    match s.tracks[t].served with
    | none => unservedPulse t w time s
    | some v => servedPulse t w v time s
  | .closing =>
    match s.tracks[t].served with
    | none => s
    | some v => servedPulse t w v time s

/-! ## Wheel filters (R4) -/

/-- The wheel lines and the curtain are taken in WATCHING, IGNORING and CLOSING (1.1). -/
def TrackState.takesInputs : TrackState → Bool
  | .closed => false
  | .settling => false
  | .watching => true
  | .ignoring => true
  | .closing => true

/-- The bounce timer started now. -/
def TrackUnit.bounceFrom (u : TrackUnit) (now : Time) : Option Time := some (plusUs now u.plan.bounce)

/-- An asserting edge at a filter (R4). -/
def WheelFilter.assertEdge (now : Time) (bounce : Option Time) (f : WheelFilter) : WheelFilter :=
  match f.state with
  | .quiet => { f with state := .confirming, edgeTime := now, bounce := bounce }
  | .confirming => f
  | .on => f
  | .recovering => f

/-- A releasing edge at a filter (R4). -/
def WheelFilter.releaseEdge (bounce : Option Time) (f : WheelFilter) : WheelFilter :=
  match f.state with
  | .quiet => f
  | .confirming => { f with state := .quiet, bounce := none }
  | .on => { f with state := .recovering, bounce := bounce }
  | .recovering => f

/-- An edge: the line has its new level; the filter takes the edge where the track takes its inputs (R4). The filter
state alone decides: an edge commanded on a line that already stands at that level is taken as any other (DESIGN CHOICE,
log 57). -/
def wheelEdge (t : TrackId) (w : Sensor) (level : Bool) (edge : Option Time → WheelFilter → WheelFilter) (s : State) :
    State :=
  modTrack t (fun u =>
    let u := u.modFilter (fun f => { f with asserted := level }) w
    if u.state.takesInputs then u.modFilter (edge (u.bounceFrom s.gantryTime)) w else u) s

/-- ASSERTING_EDGE (R4). -/
def execAssertingEdge (m : Moment) (t : TrackId) (w : Sensor) (s : State) : Host.Outcome State Fault Refusal :=
  let s := taken m s
  .next (wheelEdge t w true (WheelFilter.assertEdge s.gantryTime) s)

/-- RELEASING_EDGE (R4). -/
def execReleasingEdge (m : Moment) (t : TrackId) (w : Sensor) (s : State) : Host.Outcome State Fault Refusal :=
  let s := taken m s
  .next (wheelEdge t w false WheelFilter.releaseEdge s)

/-- A bounce timer expires (R4). -/
def bounceExpiry (t : TrackId) (w : Sensor) (s : State) : State :=
  let f := s.tracks[t].filter w
  if expired f.bounce s.gantryTime then
    match f.state with
    | .confirming => acceptPulse t w f.edgeTime (modFilter t w (fun f => { f with state := .on, bounce := none }) s)
    | .recovering =>
      modFilter t w (fun f => { f with state := if f.asserted then .on else .quiet, bounce := none }) s
    | .quiet => s
    | .on => s
  else s

/-- BOUNCE_TIMER_EXPIRY. -/
def execBounceTimerExpiry (m : Moment) (t : TrackId) (w : Sensor) (s : State) : Host.Outcome State Fault Refusal :=
  event m (bounceExpiry t w) s

/-! ## Track state (R1, R3) -/

def silenceScanUs : Nat := 10000

/-- The entry to WATCHING (R1). -/
def enterWatching (t : TrackId) (s : State) : State :=
  modTrack t (fun u => { u.drop with
    state := .watching, curtain := { Curtain.reset with silenceTimer := some (plusUs s.gantryTime silenceScanUs) } }) s

/-- SETTLE_TIMER_EXPIRY (R1). -/
def execSettleTimerExpiry (m : Moment) (t : TrackId) (s : State) : Host.Outcome State Fault Refusal :=
  plainEvent m (fun s =>
    if s.tracks[t].state = .settling ∧ expired s.tracks[t].settleTimer s.gantryTime = true then enterWatching t s
    else s) s

/-- IGNORE_TIMER_EXPIRY (R3). -/
def execIgnoreTimerExpiry (m : Moment) (t : TrackId) (s : State) : Host.Outcome State Fault Refusal :=
  plainEvent m (fun s =>
    if s.tracks[t].state = .ignoring ∧ expired s.tracks[t].ignoreTimer s.gantryTime = true then
      modTrack t (fun u => { u with
        state := .watching, ignoreTimer := none, served := none, uQueue := [], dQueue := [] }) s
    else s) s

/-- The entry at the head of a pair's queue expires (R10). -/
def axleExpiry (t : TrackId) (p : Pair) (s : State) : State :=
  match s.tracks[t].queue p with
  | [] => s
  | first :: rest =>
    if reached (plusUs first (pairWindow t p s)) s.gantryTime then unpairedPulse t (setQueue t p rest s) else s

/-- AXLE_ENTRY_EXPIRY. -/
def execAxleEntryExpiry (m : Moment) (t : TrackId) (p : Pair) (s : State) : Host.Outcome State Fault Refusal :=
  event m (axleExpiry t p) s

/-! ## The roof curtain (R13-R18) -/

/-- The lit beams above the roof-line beam (R13). -/
def litAbove (roofLine : Nat) (beams : BitVec 24) : List Nat :=
  (List.range 24).filter fun b => decide (roofLine < b) && beams.getLsbD b

/-- The highest lit beam of a lit scan. -/
def highestLit (lit : List Nat) : Nat := lit.getLastD 0

/-- The detector back in CLEAR with both counts at 0. -/
def Curtain.clear (c : Curtain) : Curtain :=
  { c with detector := .clear, lit := 0, dark := 0, enter := none, leave := none, stuckTimer := none }

/-- The blind flag is set: any object is discarded, the dark run start becomes absent (R16-R18). -/
def Curtain.setBlind (c : Curtain) : Curtain := { c.clear with blind := true, darkRunStart := none }

/-- A lit scan in CLEAR (R14). -/
def Curtain.litInClear (plan : TrackPlan) (now : Time) (top : Nat) (c : Curtain) : Curtain :=
  let c := if c.lit = 0 then { c with enter := some now, topBeam := top, lit := 1 }
    else { c with lit := c.lit + 1, topBeam := max c.topBeam top }
  if plan.settleScans ≤ c.lit then
    { c with detector := .object, dark := 0, stuckTimer := c.enter.map fun t => plusUs t (secondsUs plan.stuckS) }
  else c

/-- A dark scan in OBJECT (R15). -/
def Curtain.darkInObject (now : Time) (c : Curtain) : Curtain :=
  if c.dark = 0 then { c with leave := some now, dark := 1 } else { c with dark := c.dark + 1 }

/-- The object has left: its enter and leave times (R15). -/
def Curtain.leftObject (plan : TrackPlan) (c : Curtain) : Option (Time × Time) :=
  if plan.settleScans ≤ c.dark then
    match c.enter, c.leave with
    | some e, some l => some (e, l)
    | _, _ => none
  else none

/-- A scan at the object detector (R14, R15). -/
def detectScan (t : TrackId) (lit : List Nat) (s : State) : State :=
  let plan := s.tracks[t].plan
  let top := highestLit lit
  match s.tracks[t].curtain.detector with
  | .clear =>
    modCurtain t (fun c => if lit.isEmpty then { c with lit := 0, enter := none }
      else c.litInClear plan s.gantryTime top) s
  | .object =>
    if lit.isEmpty then
      let c := s.tracks[t].curtain.darkInObject s.gantryTime
      match c.leftObject plan with
      | some (enter, leave) => objectReport t enter leave c.topBeam (modCurtain t (fun _ => c.clear) s)
      | none => modCurtain t (fun _ => c) s
    else modCurtain t (fun c => { c with dark := 0, leave := none, topBeam := max c.topBeam top }) s

/-- A scan at the blind-clearing watch (R18). -/
def Curtain.watchScan (now : Time) (lit : Bool) (c : Curtain) : Curtain :=
  if lit then { c with darkRunStart := none }
  else
    match c.darkRunStart with
    | none => { c with darkRunStart := some now }
    | some start =>
      if reached (plusUs start 1000000) now then { c.clear with blind := false } else c

/-- A scan taken (R13): the silence timer restarts, then the detector or the watch takes the scan. -/
def takeScan (t : TrackId) (beams : BitVec 24) (s : State) : State :=
  let lit := litAbove s.tracks[t].plan.roofLine beams
  let s := modCurtain t (fun c => { c with silenceTimer := some (plusUs s.gantryTime silenceScanUs) }) s
  if s.tracks[t].curtain.blind then modCurtain t (Curtain.watchScan s.gantryTime (!lit.isEmpty)) s
  else detectScan t lit s

/-- SCAN_MESSAGE. -/
def execScanMessage (m : Moment) (t : TrackId) (beams : BitVec 24) (s : State) : Host.Outcome State Fault Refusal :=
  event m (fun s => if s.tracks[t].state.takesInputs then takeScan t beams s else s) s

/-- CURTAIN_BLIND (R16, R17). -/
def curtainBlind (t : TrackId) (s : State) : State :=
  raise (trackCause .curtainBlind t (servedId t s) none) (modCurtain t Curtain.setBlind s)

/-- STUCK_TIMER_EXPIRY (R16). -/
def execStuckTimerExpiry (m : Moment) (t : TrackId) (s : State) : Host.Outcome State Fault Refusal :=
  event m (fun s =>
    if s.tracks[t].curtain.detector = .object ∧ expired s.tracks[t].curtain.stuckTimer s.gantryTime = true
    then curtainBlind t s else s) s

/-- The curtain silence timer expires (R17, R18). -/
def curtainSilence (t : TrackId) (s : State) : State :=
  let s := modCurtain t (fun c => { c with silenceTimer := none }) s
  if s.tracks[t].curtain.blind then modCurtain t (fun c => { c with darkRunStart := none }) s else curtainBlind t s

/-- CURTAIN_SILENCE_EXPIRY. -/
def execCurtainSilenceExpiry (m : Moment) (t : TrackId) (s : State) : Host.Outcome State Fault Refusal :=
  event m (fun s =>
    if expired s.tracks[t].curtain.silenceTimer s.gantryTime then curtainSilence t s else s) s

end Sys2Proof.Machine
end

