-- ==== Sys2Proof/Machine/TileMover.lean ====
section
/-! DEFINITION. The tile mover (07): takes, markings, writes, follows, probes, DRY and HELD, GIVE CHAIN, the withdraw
list. -/

namespace Sys2Proof.Machine

open Sys2Proof

/-! ## Bus reads of the mover (R137) -/

/-- The mover begins a read; none begins in FAILED (R154). -/
def beginRead (phase : Phase) (a : Addr) (length : Nat) (s : State) : State :=
  if s.device = .failed then s else emit (.hostRead a length) (modMover (fun m => { m with phase := phase }) s)

/-- A take begins when its four conditions hold (R138). -/
def tryTake (s : State) : State :=
  match s.mover.cursor with
  | .at a =>
    if s.mover.queue ≠ [] ∧ s.mover.condition = .ok ∧ s.mover.phase = .idle then beginRead .taking a 32 s else s
  | .absent => s
  | .after _ => s

/-- The next field of the card at a cursor AFTER is read (R142, R146). -/
def beginFollow (a : Addr) (s : State) : State := beginRead .following (offsetAddr a 16) 8 s

/-- The read that a LOOK makes in DRY (R146). -/
def rereadDry (s : State) : State :=
  match s.mover.cursor with
  | .at a => beginRead .probing a 1 s
  | .after a => beginFollow a s
  | .absent => s

/-- A read has completed: look pending is cleared, and the re-read for DRY is made at once where it was set and the read
left the chain DRY with the phase IDLE (R146). -/
def endRead (s : State) : State :=
  let t := modMover (fun m => { m with lookPending := false }) s
  if s.mover.lookPending = true ∧ s.mover.condition = .dry ∧ s.mover.phase = .idle then rereadDry t else t

/-! ## DRY and HELD (R144, R145, R152) -/

/-- The entry into DRY (R144): CAUSE.DRY latched, CHAIN_DRY raised. A chain already DRY stays so with neither. -/
def enterDry (a : Addr) (s : State) : State :=
  if s.mover.condition = .dry then s
  else
    raise { code := .chainDry, track := none, station := none, unit := none, pid := none, detail := some a }
      (latchDry (modMover (fun m => { m with condition := .dry, hold := none }) s))

/-- The cause of a hold: of a tile, or of none (R145, R152). -/
def holdCause (code : CauseCode) (tile : Option Tile) (a : Addr) (s : State) : Cause :=
  { code := code, track := tile.map fun t => stationTrack t.station s, station := tile.map Tile.station, unit := none,
    pid := tile.map Tile.pid, detail := some a }

/-- The HOLD action: the entry into HELD with the phase IDLE, then the cause (R145). -/
def hold (reason : HoldReason) (code : CauseCode) (tile : Option Tile) (a : Addr) (s : State) : State :=
  raise (holdCause code tile a s)
    (modMover (fun m => { m with condition := .held, hold := some reason, phase := .idle }) s)

/-! ## The take (R139) -/

/-- The card becomes current with the oldest tile of the queue (R139). -/
def makeCurrent (a : Addr) (card : List Byte) (s : State) : State :=
  modMover (fun m =>
    match m.queue with
    | [] => { m with phase := .idle }
    | tile :: rest => { m with
        queue := rest, phase := .writing,
        current := some { address := a, capacity := cardCapacity card, buffer := cardBuffer card, tile := tile } }) s

/-- A withdrawn card is to be marked; its address leaves the withdraw list (R139, R140). -/
def beginMarking (a : Addr) (card : List Byte) (s : State) : State :=
  modMover (fun m => { m with
    phase := .marking, withdrawn := m.withdrawn.filter (fun x => x != a),
    marked := some { address := a, next := cardNext card } }) s

def minCapacity : Nat := 4096

/-- The card of a completed take is judged; the first case that applies decides (R139). -/
def judgeCard (a : Addr) (read : Option (List Byte)) (s : State) : State :=
  match read with
  | none => hold .cardCheck .cardCheck s.mover.queue.head? a s
  | some card =>
    if cardOwnedByDevice card = false then enterDry a (modMover (fun m => { m with phase := .idle }) s)
    else if cardSumGood card = false then hold .cardCheck .cardCheck s.mover.queue.head? a s
    else if cardCapacity card < minCapacity then hold .cardEmpty .cardEmpty s.mover.queue.head? a s
    else if s.mover.withdrawn.contains a then beginMarking a card s
    else makeCurrent a card s

/-- A read of a phase completes. The result of one that a GIVE CHAIN abandoned is discarded (R147); reads of one phase
complete in the order they began (DEDUCED, log 7). -/
def completeMoverRead (phase : Phase) (effect : State → State) (s : State) : State :=
  if s.mover.abandoned.contains phase then modMover (fun m => { m with abandoned := m.abandoned.erase phase }) s
  else if s.mover.phase = phase then endRead (effect s)
  else s

/-- A take read completes (R139). -/
def takeCompletion (read : Option (List Byte)) (s : State) : State :=
  match s.mover.cursor with
  | .at a => judgeCard a read s
  | .absent => s
  | .after _ => s

/-- TAKE_READ_COMPLETION. -/
def execTakeReadCompletion (m : Moment) (card : Option (List Byte)) (s : State) : Host.Outcome State Fault Refusal :=
  event m (completeMoverRead .taking (takeCompletion card)) s

/-! ## The end of a write (R140-R143) -/

/-- The cursor goes to the pending head, and the pending head becomes absent (R142, R147). -/
def toPendingHead (head : Addr) (s : State) : State :=
  tryTake (modMover (fun m => { m with cursor := .at head, pendingHead := none }) s)

/-- A marking has completed: the cursor follows the next field as the take read it, or goes to the pending head (R140). -/
def afterMarking (c : MarkedCard) (s : State) : State :=
  match s.mover.pendingHead with
  | some head => toPendingHead head s
  | none =>
    if c.next = 0 then enterDry c.address (modMover (fun m => { m with cursor := .after c.address }) s)
    else tryTake (modMover (fun m => { m with cursor := .at c.next }) s)

/-- MARKING_COMPLETION (R140). -/
def execMarkingCompletion (m : Moment) (s : State) : Host.Outcome State Fault Refusal :=
  event m (fun s =>
    match s.mover.phase, s.mover.marked with
    | .marking, some c =>
      afterMarking c (modMover (fun m => { m with phase := .idle, marked := none })
        (landRuns (markingRuns c) (runsLength (markingRuns c)) s))
    | _, _ => s) s

/-- The fill length of a tile on a card (R141). -/
def fillLength (c : CurrentCard) : Nat := (cutTile c).length

/-- The report of the tile on a card (R141, R143). -/
def cardReport (outcome : TileOutcome) (c : CurrentCard) : TileReport :=
  { outcome := outcome, card := some c.address, length := some (fillLength c), clipped := c.tile.clipped,
    truncated := isCut c }

/-- A finished card: the mover follows its next field, or goes to the pending head (R142). -/
def afterWrite (c : CurrentCard) (s : State) : State :=
  match s.mover.pendingHead with
  | some head => toPendingHead head s
  | none => beginFollow c.address (modMover (fun m => { m with cursor := .after c.address }) s)

/-- A card write has completed (R141): every write of the phase has landed (log 8), the tile is reported, the chain is
followed, unless the device has entered FAILED at the report (R154). -/
def finishWrite (c : CurrentCard) (s : State) : State :=
  let s := reportTile c.tile.station c.tile.number (cardReport .tiled c)
    (modMover (fun m => { m with phase := .idle, current := none })
      (landRuns (writingRuns c) (runsLength (writingRuns c)) s))
  if s.device = .failed then s else afterWrite c s

/-- WRITE_COMPLETION (R141). -/
def execWriteCompletion (m : Moment) (s : State) : Host.Outcome State Fault Refusal :=
  event m (fun s =>
    match s.mover.phase, s.mover.current with
    | .writing, some c => finishWrite c s
    | _, _ => s) s

/-! ## Bus errors of a write (R143) -/

/-- Writes attempted one after the other, errors raising nothing (R143, log 21). -/
def attemptRuns (runs : List (Addr × List Byte)) (s : State) : State :=
  runs.foldl (fun s r => (busWrite r.1 r.2 s).1) s

/-- The attempt on a card whose tile failed: the device fields with status FAILED, then the owner byte (R143). -/
def failedRuns (c : CurrentCard) : List (Addr × List Byte) :=
  (deviceFields statusFailed (fillLength c) c.tile).map (fun f => (offsetAddr c.address f.1, f.2)) ++
    [(c.address, [ownerHost])]

/-- Steps 3 and 4 of R143, the hold of a failed card: the drain context takes the address if it is absent, the cursor is
AT the pending head or AFTER the card (R147, R150). -/
def failCard (a : Addr) (m : TileMover) : TileMover :=
  { m with
    phase := .idle, current := none, marked := none, condition := .held, hold := some .cardWrite,
    drainContext := some (m.drainContext.getD a),
    cursor := match m.pendingHead with | some head => .at head | none => .after a
    pendingHead := none }

/-- How much landed before the failing write: less than all of the writes (log 8). -/
def landedBefore (runs : List (Addr × List Byte)) (landed : Nat) : Nat := min landed (runsLength runs - 1)

/-- The failing write was the last one, the owner byte. -/
def failedAtOwner (runs : List (Addr × List Byte)) (landed : Nat) : Bool :=
  decide (landedBefore runs landed + 1 = runsLength runs)

/-- Steps 2 to 4 of R143, unless the device has entered FAILED (R154): the HOLD action of CARD_WRITE, with the steps that
place the drain context and the cursor for it, comes before the cause is routed (R206, log 32). -/
def holdFailedCard (tile : Option Tile) (a : Addr) (s : State) : State :=
  if s.device = .failed then s else raise (holdCause .cardWrite tile a s) (modMover (failCard a) s)

/-- The bus writes of the phase have ended (R143). -/
def endWrites (s : State) : State := modMover (fun m => { m with phase := .idle }) s

/-- A bus error on a write of the WRITING phase (R143): the attempt, then steps 1 to 4. -/
def failWriting (c : CurrentCard) (landed : Nat) (s : State) : State :=
  let runs := writingRuns c
  let s := landRuns runs (landedBefore runs landed) s
  let s := if failedAtOwner runs landed then s else attemptRuns (failedRuns c) s
  holdFailedCard (some c.tile) c.address
    (reportTile c.tile.station c.tile.number (cardReport .failed c) (endWrites s))

/-- A bus error on a write of the MARKING phase (R143). -/
def failMarking (c : MarkedCard) (landed : Nat) (s : State) : State :=
  let runs := markingRuns c
  let s := landRuns runs (landedBefore runs landed) s
  let s := if failedAtOwner runs landed then s else attemptRuns [(c.address, [ownerHost])] s
  holdFailedCard none c.address (endWrites s)

/-- WRITE_BUS_ERROR (R143). -/
def execWriteBusError (m : Moment) (landed : Nat) (s : State) : Host.Outcome State Fault Refusal :=
  event m (fun s =>
    match s.mover.phase, s.mover.current, s.mover.marked with
    | .writing, some c, _ => failWriting c landed s
    | .marking, _, some c => failMarking c landed s
    | _, _, _ => s) s

/-! ## Follows and probes (R142, R146) -/

/-- The next field of the card at a cursor AFTER has been read (R142). -/
def followed (a : Addr) (next : Option Addr) (s : State) : State :=
  match next with
  | none => hold .cardCheck .cardCheck none a s
  | some n =>
    let s := modMover (fun m => { m with phase := .idle }) s
    if n = 0 then enterDry a s else tryTake (modMover (fun m => { m with cursor := .at n, condition := .ok }) s)

/-- A follow read completes (R142). -/
def followCompletion (next : Option Addr) (s : State) : State :=
  match s.mover.cursor with
  | .after a => followed a next s
  | .absent => s
  | .at _ => s

/-- FOLLOW_READ_COMPLETION. -/
def execFollowReadCompletion (m : Moment) (next : Option Addr) (s : State) : Host.Outcome State Fault Refusal :=
  event m (completeMoverRead .following (followCompletion next)) s

/-- A probe of the owner byte has completed (R146). -/
def probed (owner : Option Byte) (s : State) : State :=
  let s := modMover (fun m => { m with phase := .idle }) s
  if owner = some ownerDevice then tryTake (modMover (fun m => { m with condition := .ok }) s) else s

/-- PROBE_READ_COMPLETION. -/
def execProbeReadCompletion (m : Moment) (owner : Option Byte) (s : State) : Host.Outcome State Fault Refusal :=
  event m (completeMoverRead .probing (probed owner)) s

/-! ## LOOK at the mover (R146) -/

/-- A hold is released (R146). -/
def releaseHold (s : State) : State :=
  let s := modMover (fun m => { m with condition := .ok, hold := none }) s
  match s.mover.cursor with
  | .at _ => tryTake s
  | .after a => beginFollow a s
  | .absent => s

/-- A LOOK reaches the tile mover (R146). -/
def lookMover (s : State) : State :=
  match s.mover.phase with
  | .taking => modMover (fun m => { m with lookPending := true }) s
  | .following => modMover (fun m => { m with lookPending := true }) s
  | .probing => modMover (fun m => { m with lookPending := true }) s
  | .writing => s
  | .marking => s
  | .idle =>
    match s.mover.condition with
    | .ok => s
    | .dry => rereadDry s
    | .held => releaseHold s

/-! ## GIVE CHAIN and WITHDRAW CARDS (R147, R148) -/

/-- The read in progress is abandoned: its result is discarded when it completes (R147). It takes look pending with it
(log 20). -/
def TileMover.abandonRead (m : TileMover) : TileMover :=
  { m with phase := .idle, lookPending := false, abandoned := m.abandoned ++ [m.phase] }

/-- The cursor is taken to a new head by the phase (R147). -/
def headTo (head : Addr) (m : TileMover) : TileMover :=
  match m.phase with
  | .idle => { m with cursor := .at head }
  | .taking => { m.abandonRead with cursor := .at head }
  | .following => { m.abandonRead with cursor := .at head }
  | .probing => { m.abandonRead with cursor := .at head }
  | .writing => { m with pendingHead := some head }
  | .marking => { m with pendingHead := some head }

/-- An accepted GIVE CHAIN (R147). -/
def giveHead (head : Addr) (s : State) : State :=
  tryTake (modMover (fun m =>
    { headTo head m with withdrawn := [], condition := if m.condition = .dry then .ok else m.condition }) s)

def maxWithdrawn : Nat := 16

/-- Entry results of WITHDRAW CARDS, coded as 11.3 gives. -/
inductive EntryResult where
  | added | busy | already | full
deriving DecidableEq, Repr

/-- The address of the current card or of the card being marked. -/
def busyCard (a : Addr) (m : TileMover) : Bool :=
  (match m.current with | some c => c.address == a | none => false) ||
    (match m.marked with | some c => c.address == a | none => false)

/-- The entry result of one address (R148). -/
def entryResult (a : Addr) (m : TileMover) : EntryResult :=
  if busyCard a m then .busy
  else if m.withdrawn.contains a then .already
  else if maxWithdrawn ≤ m.withdrawn.length then .full
  else .added

/-- The addresses of a WITHDRAW CARDS are taken in order (R148). -/
def withdrawAll : List Addr → TileMover → TileMover × List EntryResult
  | [], m => (m, [])
  | a :: rest, m =>
    let r := entryResult a m
    let q := withdrawAll rest (if r = .added then { m with withdrawn := m.withdrawn ++ [a] } else m)
    (q.1, r :: q.2)

end Sys2Proof.Machine
end

