-- ==== Sys2Proof/Machine/Ports.lean ====
section
/-! DEFINITION. The camera ports (06): frame arrivals, cropping, tile placement, frame timers. -/

namespace Sys2Proof.Machine

open Sys2Proof

/-- A cause of a port names the station and its track (R130). -/
def portCause (code : CauseCode) (st : StationId) (pid : Option PassageId) (detail : Nat) (s : State) : Cause :=
  { code := code, track := some (stationTrack st s), station := some st, unit := none, pid := pid,
    detail := some (BitVec.ofNat 64 detail) }

/-- The passage id of the run a station holds. -/
def runId (st : StationId) (s : State) : Option PassageId := s.stations[st].run.map Run.pid

/-! ## Frames (R122) -/

/-- Bytes of one pixel. -/
def pixelBytes (f : Frame) : Nat := f.depth / 8

/-- A frame is fit (R122). -/
def frameFit (f : Frame) : Bool :=
  (f.depth == 8 || f.depth == 16) && within 1 4096 f.width && within 1 4096 f.height &&
    f.data.length == f.width * f.height * pixelBytes f

/-! ## Cropping (R126-R128) -/

/-- A span of a frame, clamped: where the kept part begins, and its length (R127). -/
def clamp (start : Int) (length limit : Nat) : Nat × Nat :=
  let lo := max 0 start
  let hi := min (start + length) limit
  if lo < hi then (lo.toNat, (hi - lo).toNat) else (0, 0)

/-- The centre row of the crop window (R126): the height table entry of the run's top beam, or the test row. -/
def centreRow (plan : StationPlan) (r : Run) : Nat :=
  match r.topBeam with
  | some b => plan.heights.getD b 0
  | none => plan.testRow

/-- The top row of the crop window (R126). -/
def topRow (plan : StationPlan) (r : Run) : Int := (centreRow plan r : Int) - (plan.cropHeight / 2 : Nat)

/-- The rows of the kept area, row by row, each row the bytes of its columns (R128). The two bytes of a 16-bit pixel stand
low byte first in `Frame.data` (DESIGN CHOICE, log 38), so they are kept as they stand. -/
def keptPixels (f : Frame) (left top width height : Nat) : List Byte :=
  (List.range height).flatMap fun i =>
    (f.data.drop (((top + i) * f.width + left) * pixelBytes f)).take (width * pixelBytes f)

/-- The tile of a fit frame, its window clamped to the frame (R126-R128). -/
def cropTile (st : StationId) (number : Nat) (plan : StationPlan) (r : Run) (f : Frame) : Tile :=
  let cols := clamp (plan.cropLeft : Int) plan.cropWidth f.width
  let rows := clamp (topRow plan r) plan.cropHeight f.height
  let empty := cols.2 == 0 || rows.2 == 0
  let width := if empty then 0 else cols.2
  let height := if empty then 0 else rows.2
  let left := if empty then 0 else cols.1
  let top := if empty then 0 else rows.1
  { station := st, number := number, pid := r.pid, sighting := r.sighting,
    clipped := decide (width < plan.cropWidth) || decide (height < plan.cropHeight),
    bytes := tileHeader width height f.depth left top f.width f.height ++ keptPixels f left top width height }

/-! ## Tile placement (R129) -/

def maxTiles : Nat := 8

/-- A tile is appended to the ready tile queue, where a take may begin (R138), or dropped with TILE_DROPPED when the
queue holds 8 (R129). -/
def placeTile (t : Tile) (s : State) : State :=
  if s.mover.queue.length < maxTiles then tryTake (modMover (fun m => { m with queue := m.queue ++ [t] }) s)
  else
    raise (portCause .tileDropped t.station (some t.pid) t.number s)
      (reportTile t.station t.number (.plain .dropped t.clipped) s)

/-! ## Frame arrival (R119, R122) -/

/-- The awaited entry of a tag. -/
def awaitedTag (st : StationId) (tag : Byte) (s : State) : Option Awaited :=
  s.ports[st].awaited.find? fun a => a.tag == tag

/-- An awaited entry leaves the list. -/
def dropAwaited (st : StationId) (number : Nat) (s : State) : State :=
  modPort st (fun p => { p with awaited := p.awaited.filter fun a => a.number != number }) s

/-- FRAME_MISMATCH (R122, R130); the run is the one held when the frame arrives. -/
def frameMismatch (st : StationId) (tag : Byte) (pid : Option PassageId) (s : State) : State :=
  raise (portCause .frameMismatch st pid tag.toNat s) s

/-- A frame taken for an awaited entry (R122). -/
def takeFrame (st : StationId) (f : Frame) (a : Awaited) (s : State) : State :=
  let pid := runId st s
  let s := frameReceived st a.number (dropAwaited st a.number s)
  if frameFit f then
    match s.stations[st].run, s.stations[st].plan with
    | some r, some plan => placeTile (cropTile st a.number plan r f) s
    | _, _ => s
  else frameMismatch st f.tag pid (reportTile st a.number (.plain .mismatched false) s)

/-- A frame arrives (R122); a port that is not configured discards it (R119). -/
def frameArrives (st : StationId) (f : Frame) (s : State) : State :=
  if s.ports[st].configured then
    let s := modPort st (fun p => { p with silent := 0 }) s
    match awaitedTag st f.tag s with
    | none => frameMismatch st f.tag (runId st s) s
    | some a => takeFrame st f a s
  else s

/-- FRAME_ARRIVAL. -/
def execFrameArrival (m : Moment) (st : StationId) (frame : Frame) (s : State) : Host.Outcome State Fault Refusal :=
  event m (frameArrives st frame) s

/-! ## Frame timers (R123) -/

/-- A frame timer expires (R123): FRAME_TIMEOUT, then TIMED OUT, or CAMERA_SILENT at the third. -/
def frameTimeout (st : StationId) (number : Nat) (s : State) : State :=
  let count := s.ports[st].silent + 1
  let s := modPort st (fun p => { p with silent := count }) (dropAwaited st number s)
  let s := raise (portCause .frameTimeout st (runId st s) count s) s
  if count < 3 then reportTile st number (.plain .timedOut false) s else cameraSilent st s

/-- The frame timer of an awaited entry has expired. -/
def timerExpired (number : Nat) (now : Time) (a : Awaited) : Bool :=
  a.number == number &&
    match a.phase with
    | .opened => false
    | .waiting expiry => reached expiry now

/-- FRAME_TIMER_EXPIRY. -/
def execFrameTimerExpiry (m : Moment) (st : StationId) (number : Nat) (s : State) : Host.Outcome State Fault Refusal :=
  event m (fun s =>
    if s.ports[st].awaited.any (timerExpired number s.gantryTime) then frameTimeout st number s else s) s

end Sys2Proof.Machine
end

