-- ==== Sys2Proof/Machine/Snapshot.lean ====
section
/-! DEFINITION. The four parts of a snapshot record (11.9, R169), from the values each block supplies (R44, R66, R95, R115,
R131, R153, R157, R193, R213). -/

namespace Sys2Proof.Machine

open Sys2Proof

/-! ## Codes of 11.9 -/

def TrackState.code : TrackState → Nat
  | .closed => 0 | .settling => 1 | .watching => 2 | .ignoring => 3 | .closing => 4

def HoldReason.cause : HoldReason → CauseCode
  | .cardCheck => .cardCheck
  | .cardEmpty => .cardEmpty
  | .cardWrite => .cardWrite

def Cursor.code : Cursor → Nat
  | .absent => 0
  | .at _ => 1
  | .after _ => 2

/-- The cursor's address, absent without one. -/
def Cursor.address : Cursor → Option Addr
  | .absent => none
  | .at a => some a
  | .after a => some a

def Phase.code : Phase → Nat
  | .idle => 0 | .taking => 1 | .writing => 2 | .marking => 3 | .following => 4 | .probing => 5

def StationState.code : StationState → Nat
  | .offline => 0 | .resting => 1 | .waking => 2 | .idle => 3 | .running => 4 | .ending => 5

def PassageState.code : PassageState → Nat
  | .measuring => 1 | .running => 2 | .finishing => 3

def UnitState.code : UnitState → Nat
  | .out => 0 | .resting => 1 | .charging => 2 | .ready => 3 | .firing => 4

def StepWait.code : StepWait → Nat
  | .none => 0 | .flash => 1 | .exposure _ => 2 | .pause _ => 3 | .await _ => 4

/-- The outcome of a run so far, coded as in the capture record. -/
def RunOutcome.code : RunOutcome → Nat
  | .done => 0 | .abandoned => 2 | .faulted => 3

/-- An address, all ones when absent. -/
def addrField (a : Option Addr) : List Byte := le 8 (a.getD (BitVec.allOnes 64)).toNat

/-- A gantry time, all ones when absent. -/
def timeField (t : Option Time) : List Byte := le 6 (t.getD (BitVec.allOnes 48)).toNat

/-! ## Part 1 -/

/-- The latched CAUSE bits in the register's positions. -/
def latchByte (l : Latches) : Byte :=
  byteOf (2 * boolNat l.orders + 4 * boolNat l.dry + 8 * boolNat l.fault + 16 * boolNat l.failed)

def trackByte (u : TrackUnit) : Byte := byteOf (u.state.code + 128 * boolNat u.curtain.blind)

def snapshotPart1 (s : State) : List Byte :=
  padTo 120 (le 6 s.gantryTime.toNat ++
    [byteOf s.device.code, byteOf s.failReason.code, latchByte s.latches, byteOf s.engine.parked.length] ++
    allTracks.map (fun t => trackByte s.tracks[t]) ++ le 2 s.writer.rowCursor.val ++
    [byteOf s.writer.held.length, byteOf (s.writer.held.filter Record.isNote).length, byteOf s.writer.notices.length,
     byteOf (boolNat s.writer.overflow)] ++ le 2 s.writer.lost ++ le 2 0 ++ le 4 s.writer.sequence.toNat ++
    [byteOf s.mover.condition.code, byteOf (match s.mover.hold with | some h => h.cause.num | none => 0),
     byteOf s.mover.cursor.code, byteOf s.mover.phase.code] ++
    addrField s.mover.cursor.address ++ addrField (s.mover.current.map CurrentCard.address) ++
    [byteOf s.mover.queue.length, byteOf s.mover.withdrawn.length] ++ le 6 0 ++ addrField s.mover.drainContext)

/-! ## Part 2 -/

/-- A context; a FREE one holds 0 after its state (R44). -/
def contextBytes (p : Option Passage) : List Byte :=
  match p with
  | none => le 10 0
  | some p =>
    [byteOf p.state.code, byteOf (p.track.val + 16 * directionCode (some p.dir))] ++ le 2 p.id.toNat ++
      speedField p.estimate ++
      [byteOf ((p.sightings.filter fun x => x.number.isSome).length +
        16 * (p.sightings.filter fun x => x.state == .accounted).length), byteOf p.outstanding]

def snapshotPart2 (s : State) : List Byte :=
  padTo 120 (le 2 s.nextPassageId.toNat ++ le 6 0 ++ allContexts.flatMap fun k => contextBytes s.passages[k])

/-! ## Part 3 -/

/-- The mask of LOADED programs. -/
def loadedMask (s : State) : Nat :=
  (allPrograms.map fun p => if s.programs[p].isSome then 2 ^ p.val else 0).sum

/-- A station; bytes 2 to 8 hold 0 without a run (R95), and so do the bits of byte 1 (DESIGN CHOICE, log 42). -/
def stationBytes (x : Station) : List Byte :=
  match x.run with
  | none => byteOf x.state.code :: le 8 0 ++ [byteOf x.marks.length]
  | some r =>
    [byteOf x.state.code, byteOf (r.outcome.code + 4 * boolNat r.unsynced + 128)] ++ le 2 r.pid.toNat ++
      [byteOf r.sighting, byteOf r.program.val, byteOf r.index.val, byteOf r.wait.code, byteOf r.exposures.length,
       byteOf x.marks.length]

def snapshotPart3 (s : State) : List Byte :=
  padTo 120 (le 2 (loadedMask s) ++ le 6 0 ++ allStations.flatMap fun st => stationBytes s.stations[st])

/-! ## Part 4 -/

/-- A unit; the firing station is absent, all ones, out of FIRING (R115). -/
def unitByte (u : StrobeUnit) : Byte :=
  byteOf (u.state.code + 16 * (match u.firing with | some st => st.val | none => 7))

def Awaited.isWaiting (a : Awaited) : Bool :=
  match a.phase with
  | .opened => false
  | .waiting _ => true

def portBytes (p : Port) : List Byte :=
  [p.nextTag, byteOf (p.awaited.length + 16 * (p.awaited.filter Awaited.isWaiting).length), byteOf p.silent]

def snapshotPart4 (s : State) : List Byte :=
  padTo 120 (
    [byteOf s.schedule.length, byteOf (s.schedule.filter fun r => r.pid == 0).length,
     byteOf (s.schedule.filter fun r => reached r.due s.gantryTime).length, 0] ++
    timeField (s.schedule.head?.map Request.due) ++
    allStations.map (fun st => byteOf (s.schedule.filter fun r => r.station == st).length) ++
    allUnits.map (fun u => unitByte s.units[u]) ++
    [byteOf s.waiting.length, byteOf (maskOf (s.waiting.map FlashRequest.station)),
     byteOf (maskOf (allStations.filter fun st => exposureOpen st s)), 0] ++
    timeField (s.waiting.head?.map FlashRequest.deadline) ++ allStations.flatMap fun st => portBytes s.ports[st])

/-- The snapshot record, assembled now (R169). -/
def snapshotOf (s : State) : Record :=
  .snapshot (snapshotPart1 s) (snapshotPart2 s) (snapshotPart3 s) (snapshotPart4 s)

end Sys2Proof.Machine
end

