-- ==== Sys2Proof/Machine/Orders.lean ====
section
/-! DEFINITION. The order engine (09): the judgement and the effect of each order, the take of a slot, the scan of the
board, the completions of the long reads, and the commands of the orders. -/

namespace Sys2Proof.Machine

open Sys2Proof

/-! ## Parking (R178) -/

def maxParked : Nat := 4

/-- The parked order list is full. -/
def parkFull (s : State) : Bool := decide (maxParked ≤ s.engine.parked.length)

def park (slot : SlotId) (w : ParkedFor) (s : State) : State :=
  modEngine (fun e => { e with parked := e.parked ++ [{ slot := slot, waits := w }] }) s

/-- A refusal without result bytes: they are written 0, those of a WITHDRAW CARDS or SET REST refused before any entry
result too (DESIGN CHOICE, log 41). -/
def refuse (slot : SlotId) (reason : Reason) (s : State) : State := writeFinish slot (.refused reason []) s

/-! ## Tracks (R1, R2, R186, R187) -/

/-- OPEN TRACK takes a CLOSED track to SETTLING, or to WATCHING at once with a settle time of 0 (R1). -/
def beginOpen (t : TrackId) (s : State) : State :=
  if s.tracks[t].plan.settleMs = 0 then enterWatching t s
  else modTrack t (fun u => { u with
    state := .settling, settleTimer := some (plusUs s.gantryTime (millisUs u.plan.settleMs)) }) s

def openOrder (slot : SlotId) (track : Byte) (s : State) : State :=
  match trackOfByte track with
  | none => refuse slot .badArgument s
  | some t =>
    if s.tracks[t].state ≠ .closed then refuse slot .already s
    else if s.tracks[t].plan.enabled = false then refuse slot .badArgument s
    else writeFinish slot (.ok []) (beginOpen t s)

/-- A track is closed NOW: it enters CLOSED, where a parked CLOSE TRACK AFTER on it is finished, then its passages end
(R2, R40; the order is a DESIGN CHOICE, log 52). -/
def closeNow (t : TrackId) (s : State) : State := endTrackPassages t (enterClosed t .now s)

def closeNowOrder (slot : SlotId) (t : TrackId) (s : State) : State :=
  if s.tracks[t].state = .closed then refuse slot .already s
  else writeFinish slot (.ok [CloseMode.now.byte]) (closeNow t s)

/-- A track enters CLOSING; its settle and ignore timers stop (R2). -/
def enterClosing (t : TrackId) (s : State) : State :=
  modTrack t (fun u => { u with state := .closing, settleTimer := none, ignoreTimer := none }) s

def closeAfterOrder (slot : SlotId) (t : TrackId) (s : State) : State :=
  if s.tracks[t].state = .closed ∨ s.tracks[t].state = .closing then refuse slot .already s
  else if trackHasPassage t s = false then
    writeFinish slot (.ok [CloseMode.after.byte]) (enterClosed t .after (enterClosing t s))
  else if parkFull s then refuse slot .parkFull s
  else park slot (.track t) (enterClosing t s)

/-- CLOSE TRACK by its mode byte (R186). -/
def closeOrder (slot : SlotId) (track mode : Byte) (s : State) : State :=
  match trackOfByte track with
  | none => refuse slot .badArgument s
  | some t =>
    if mode = CloseMode.now.byte then closeNowOrder slot t s
    else if mode = CloseMode.after.byte then closeAfterOrder slot t s
    else refuse slot .badArgument s

/-! ## Passages (R39, R188) -/

/-- The outstanding request count of a passage; 0 when it has completed (R188). -/
def outstandingOf (id : PassageId) (s : State) : Nat := ((passageOf id s).map Passage.outstanding).getD 0

def abandonOrder (slot : SlotId) (id : PassageId) (s : State) : State :=
  if id = 0 then refuse slot .badArgument s
  else
    match contextOf id s with
    | none => refuse slot .noSuchPassage s
    | some k =>
      match s.passages[k] with
      | none => refuse slot .noSuchPassage s
      | some p =>
        match endPassage k p .abandoned with
        | none => refuse slot .already s
        | some f =>
          let s := f s
          writeFinish slot (.ok [byteOf p.track.val, byteOf (outstandingOf id s)]) s

/-! ## Test shots (R64, R190) -/

def minSpeed : Nat := 1389

/-- The station is RUNNING or ENDING, or has a test request waiting (R64 check 3). -/
def testBusy (st : StationId) (s : State) : Bool :=
  s.stations[st].state == .running || s.stations[st].state == .ending ||
    s.schedule.any fun r => r.pid == 0 && r.station == st

def testShotOrder (slot : SlotId) (station program : Byte) (speed : Word) (s : State) : State :=
  match stationOfByte station, programOfByte program with
  | some st, some p =>
    if within minSpeed maxSpeed speed.toNat = false then refuse slot .badArgument s
    else if s.stations[st].state = .offline then refuse slot .wrongState s
    else if testBusy st s then refuse slot .stationBusy s
    else if parkFull s then refuse slot .parkFull s
    else placeTest (testRequest st p speed.toNat s) (park slot (.station st) s)
  | _, _ => refuse slot .badArgument s

/-! ## Chain (R147, R189, R191) -/

def giveChainOrder (slot : SlotId) (head : Addr) (s : State) : State :=
  if head = 0 then refuse slot .badArgument s else writeFinish slot (.ok []) (giveHead head s)

def drainOrder (slot : SlotId) (s : State) : State :=
  if s.engine.parked.any fun p => p.waits == .drain then refuse slot .already s
  else
    match drainVerdict s with
    | .failed a => writeFinish slot (drainFailed a) (modMover (fun m => { m with drainContext := none }) s)
    | .done => writeFinish slot (.ok []) s
    | .wait => if parkFull s then refuse slot .parkFull s else park slot .drain s

/-! ## Snapshot (R169, R193) -/

/-- The result bytes of a placement (11.3). -/
def placementBytes : Placement → List Byte
  | .written row => [0, 0] ++ le 2 row.val
  | .held => [1]
  | .lost => [2]
  | .discarded => []

/-- SNAPSHOT (R169, R193). The causes that the placement brings up are raised before the order is finished (DESIGN CHOICE,
log 49). -/
def snapshotOrder (slot : SlotId) (s : State) : State :=
  let q := handRecord (snapshotOf s) s
  writeFinish slot (.ok (placementBytes q.2)) q.1

/-! ## Set rest (R76, R194) -/

/-- Per-station results (11.3). -/
inductive RestResult where
  | done | already | busy | offline
deriving DecidableEq, Repr

def RestResult.byte : RestResult → Byte
  | .done => 0 | .already => 1 | .busy => 2 | .offline => 3

/-- REST at one station (R76). -/
def restStation (st : StationId) (s : State) : State × RestResult :=
  match s.stations[st].state with
  | .offline => (s, .offline)
  | .resting => (s, .already)
  | .waking => (goToRest st s, .done)
  | .idle => (goToRest st s, .done)
  | .running => (s, .busy)
  | .ending => (s, .busy)

/-- WAKE at one station (R76). -/
def wakeStation (st : StationId) (s : State) : State × RestResult :=
  match s.stations[st].state with
  | .offline => (s, .offline)
  | .resting => (wakeNotice st s, .done)
  | .waking => (s, .already)
  | .idle => (wakeNotice st s, .already)
  | .running => (s, .already)
  | .ending => (s, .already)

/-- The named stations are taken in station order; a byte for each station, 0xFF where not named (R194, 11.3). -/
def restEach (act : StationId → State → State × RestResult) (mask : Byte) :
    List StationId → State → State × List (Option RestResult)
  | [], s => (s, [])
  | st :: rest, s =>
    if mask.getLsbD st.val then
      let r := act st s
      let q := restEach act mask rest r.1
      (q.1, some r.2 :: q.2)
    else
      let q := restEach act mask rest s
      (q.1, none :: q.2)

/-- A per-station result leaves the order DONE. -/
def restGood : Option RestResult → Bool
  | none => true
  | some .done => true
  | some .already => true
  | some .busy => false
  | some .offline => false

def restByte : Option RestResult → Byte
  | none => 0xFF
  | some r => r.byte

/-- A SET REST with its mask and action judged (R194). -/
def restOrder (slot : SlotId) (act : StationId → State → State × RestResult) (mask : Byte) (s : State) : State :=
  let q := restEach act mask allStations s
  let bytes := q.2.map restByte
  writeFinish slot (if q.2.all restGood then .ok bytes else .refused .partialResult bytes) q.1

def setRestOrder (slot : SlotId) (mask action : Byte) (s : State) : State :=
  if mask = 0 then refuse slot .badArgument s
  else if action = 0 then restOrder slot restStation mask s
  else if action = 1 then restOrder slot wakeStation mask s
  else refuse slot .badArgument s

/-! ## Orders that read host memory (R69, R183, R192) -/

/-- The scan waits on a read (R177). -/
def beginLongRead (slot : SlotId) (r : LongRead) (a : Addr) (length : Nat) (s : State) : State :=
  emit (.hostRead a length) (modEngine (fun e => { e with executing := some (slot, r) }) s)

def planLength : Nat := 872
def tableLength : Nat := 4096

def loadPlanOrder (slot : SlotId) (a : Addr) (s : State) : State := beginLongRead slot (.plan a) a planLength s

/-- A program mask of 0 is refused before any read, with failure 0 (R69, 11.3). -/
def loadProgramsOrder (slot : SlotId) (mask : BitVec 16) (a : Addr) (s : State) : State :=
  if mask = 0 then refuse slot .badArgument s else beginLongRead slot (.programs mask a) a tableLength s

def withdrawOrder (slot : SlotId) (count : Byte) (a : Addr) (s : State) : State :=
  if within 1 16 count.toNat then beginLongRead slot (.addresses count.toNat a) a (8 * count.toNat) s
  else refuse slot .badArgument s

/-! ## Judgement (R181) -/

/-- The device states in which an order is accepted (R181). -/
def acceptedIn (o : Order) (d : DeviceState) : Bool :=
  match o with
  | .badKind => true
  | .loadPlan _ => d == .dormant || d == .ready
  | .loadPrograms _ _ => d == .dormant || d == .ready
  | .openTrack _ => d == .watching
  | .closeTrack _ _ => d == .watching
  | .testShot _ _ _ => d == .watching
  | .abandonPassage _ => d == .watching || d == .stopping
  | .setRest _ _ => d == .ready || d == .watching
  | .giveChain _ => d != .failed
  | .withdrawCards _ _ => d != .failed
  | .drain => d != .failed
  | .snapshot => d != .failed

/-- An order judged and carried out, refused, parked or begun. -/
def runOrder (slot : SlotId) (o : Order) (s : State) : State :=
  if acceptedIn o s.device then
    match o with
    | .badKind => refuse slot .badKind s
    | .loadPlan a => loadPlanOrder slot a s
    | .loadPrograms mask a => loadProgramsOrder slot mask a s
    | .openTrack t => openOrder slot t s
    | .closeTrack t mode => closeOrder slot t mode s
    | .giveChain head => giveChainOrder slot head s
    | .withdrawCards count a => withdrawOrder slot count a s
    | .drain => drainOrder slot s
    | .abandonPassage id => abandonOrder slot id s
    | .testShot st p v => testShotOrder slot st p v s
    | .snapshot => snapshotOrder slot s
    | .setRest mask action => setRestOrder slot mask action s
  else refuse slot .wrongState s

/-! ## The take of a slot (R180) -/

/-- The engine holds a slot that is executing or whose order is parked (R177). -/
def holdsSlot (slot : SlotId) (s : State) : Bool :=
  (match s.engine.executing with | some (n, _) => n == slot | none => false) ||
    s.engine.parked.any fun p => p.slot == slot

/-- The state byte TAKEN is written, then the order is judged (R180). The tests of `settle` follow each order (log 15). -/
def takeOrder (slot : SlotId) (o : Order) (s : State) : State :=
  let q := busWrite (slotAddr slot s) [stateTaken] s
  if q.2 then
    let s := runOrder slot o q.1
    if s.device = .failed then s else settle s
  else exchangeRead (slotOffset slot) q.1

/-- A slot is visited by the scan (R180). -/
def visitSlot (slot : SlotId) (s : State) : State :=
  let s := modEngine (fun e => { e with scan := some slot }) s
  if holdsSlot slot s then s
  else if busReadFails (slotAddr slot s) 1 s then exchangeRead (slotOffset slot) s
  else if busRead (slotAddr slot s) 1 s = [statePosted] then
    if busReadFails (slotAddr slot s) 64 s then exchangeRead (slotOffset slot) s
    else takeOrder slot (slotOrder (busRead (slotAddr slot s) 64 s)) s
  else s

/-! ## The scan (R179) -/

def allSlots : List SlotId := [0, 1, 2, 3, 4, 5, 6, 7, 8, 9, 10, 11, 12, 13, 14, 15]

/-- The scan cannot go on: the device is FAILED, or the scan waits on a read. -/
def scanStops (s : State) : Bool := s.device == .failed || s.engine.executing.isSome

/-- Slots are visited in order until the scan stops. -/
def visitSlots (slots : List SlotId) (s : State) : State :=
  slots.foldl (fun s slot => if scanStops s then s else visitSlot slot s) s

/-- The scan ends, unless it has stopped on its way. -/
def endScan (s : State) : State := if scanStops s then s else modEngine (fun e => { e with scan := none }) s

/-- A scan from slot 0, look-again clear; no LOOK can come within it (log 6). -/
def startScan (s : State) : State :=
  endScan (visitSlots allSlots (modEngine (fun e => { e with scan := some 0, lookAgain := false }) s))

/-- The scan goes on after a slot, and starts anew at its end where look-again is set (R179). -/
def continueScan (slot : SlotId) (s : State) : State :=
  let s := visitSlots (allSlots.filter fun n => slot.val < n.val) s
  if scanStops s then s else if s.engine.lookAgain then startScan s else endScan s

/-- A LOOK reaches the order engine (R179). -/
def lookEngine (s : State) : State :=
  if s.device = .failed ∨ s.base = 0 then s
  else if s.engine.scan.isSome then modEngine (fun e => { e with lookAgain := true }) s
  else startScan s

/-! ## An accepted plan (R184) -/

/-- A track takes its new plan entry, CLOSED with its state dropped (R20). -/
def planTrack (plan : List Byte) (s : State) (t : TrackId) : State :=
  modTrack t (fun u => { u.drop with plan := trackPlanOf plan t }) s

/-- A station takes its new plan entry, RESTING or WAKING by its rest delay (R71), its port configured (R132). -/
def planStation (plan : List Byte) (s : State) (st : StationId) : State :=
  let p := stationPlanOf plan st
  let s := modPort st (fun x => { x with configured := true, silent := 0 }) s
  let s := modStation st (fun x => { x with plan := some p, run := none, marks := [] }) s
  if p.restS = 0 then enterWaking st s else enterResting st s

/-- Some user station of a unit is WAKING (R99). -/
def someUserWaking (users : BitVec 8) (s : State) : Bool :=
  allStations.any fun st => users.getLsbD st.val && s.stations[st].state == .waking

/-- A unit takes its new plan entry, CHARGING or RESTING by the states of its users (R99). -/
def planUnit (plan : List Byte) (s : State) (u : UnitId) : State :=
  let users := userStations u s
  let fresh : StrobeUnit := { StrobeUnit.reset with
    litTracks := litTracksOf plan u, rechargeMs := rechargeOf plan u, reach := glareReach (litTracksOf plan u),
    users := users }
  modUnit u (fun _ => if someUserWaking users s then fresh.charge s.gantryTime else fresh.rest) s

/-- An accepted plan replaces every table of the site plan (R184). The stations take it in station order, and so give their
standby and wake commands in it (DESIGN CHOICE, log 47). An exposure still open from a closed-out run stays in the register
(DESIGN CHOICE, log 55). -/
def acceptPlan (plan : List Byte) (s : State) : State :=
  let s := allTracks.foldl (planTrack plan) s
  let s := { s with headMin := leAt plan 4 2, headMax := leAt plan 6 2 }
  let s := allStations.foldl (planStation plan) s
  let s := allUnits.foldl (planUnit plan) s
  { s with routingLimit := leAt plan 2 1, routing := routingOf plan, device := .ready }

/-! ## Completions of the long reads (R183, R185, R192) -/

/-- DORMANT and READY, where plans and programs are taken. -/
def loadable (s : State) : Bool := s.device == .dormant || s.device == .ready

/-- LOAD PLAN from its read on (R183). -/
def finishPlan (slot : SlotId) (read : Option (List Byte)) (s : State) : State :=
  match read with
  | none => refuse slot .readError s
  | some plan =>
    if loadable s = false then refuse slot .wrongState s
    else if planSumGood plan = false then refuse slot .planCheck s
    else
      match firstBadField plan with
      | some offset => writeFinish slot (.refused .badArgument (le 4 offset)) s
      | none => writeFinish slot (.ok []) (acceptPlan plan s)

/-- The programs of an accepted table become LOADED (R69). -/
def loadAll (programs : List (ProgramId × Program)) (s : State) : State :=
  programs.foldl (fun s p => { s with programs := s.programs.set p.1 (some p.2) }) s

/-- LOAD PROGRAMS from its read on (R69, R185). -/
def finishPrograms (slot : SlotId) (mask : BitVec 16) (read : Option (List Byte)) (s : State) : State :=
  match read with
  | none => refuse slot .readError s
  | some table =>
    if loadable s = false then refuse slot .wrongState s
    else
      match programsOf table mask allPrograms with
      | .error (p, i, f) =>
        writeFinish slot (.refused .badArgument [byteOf p, byteOf i, byteOf f.code]) s
      | .ok programs => writeFinish slot (.ok (le 2 mask.toNat)) (loadAll programs s)

def EntryResult.byte : EntryResult → Byte
  | .added => 0 | .already => 1 | .busy => 2 | .full => 3

/-- An entry result leaves the order DONE (R191). -/
def EntryResult.good : EntryResult → Bool
  | .added => true
  | .already => true
  | .busy => false
  | .full => false

/-- The entry results, 0xFF past the count (11.3). -/
def entryBytes (results : List EntryResult) : List Byte :=
  results.map EntryResult.byte ++ List.replicate (16 - results.length) 0xFF

/-- WITHDRAW CARDS from its read on (R148, R191, R192). -/
def finishWithdraw (slot : SlotId) (read : Option (List Addr)) (s : State) : State :=
  match read with
  | none => refuse slot .readError s
  | some addresses =>
    if addresses.contains 0 then refuse slot .badArgument s
    else
      let q := withdrawAll addresses s.mover
      let bytes := entryBytes q.2
      writeFinish slot (if q.2.all EntryResult.good then .ok bytes else .refused .partialResult bytes)
        { s with mover := q.1 }

/-- The order the scan waited on is finished, and the scan goes on. -/
def completeRead (slot : SlotId) (finish : State → State) (s : State) : State :=
  let s := finish (modEngine (fun e => { e with executing := none }) s)
  continueScan slot (if s.device = .failed then s else settle s)

/-- PLAN_READ_COMPLETION. -/
def execPlanReadCompletion (m : Moment) (plan : Option (List Byte)) (s : State) : Host.Outcome State Fault Refusal :=
  event m (fun s =>
    match s.engine.executing with
    | some (slot, .plan _) => completeRead slot (finishPlan slot plan) s
    | _ => s) s

/-- PROGRAM_TABLE_READ_COMPLETION. -/
def execProgramTableReadCompletion (m : Moment) (table : Option (List Byte)) (s : State) :
    Host.Outcome State Fault Refusal :=
  event m (fun s =>
    match s.engine.executing with
    | some (slot, .programs mask _) => completeRead slot (finishPrograms slot mask table) s
    | _ => s) s

/-- A read of `n` addresses has brought `n` of them, or met a bus error. -/
def listComplete (n : Nat) (addresses : Option (List Addr)) : Bool :=
  match addresses with
  | none => true
  | some l => l.length == n

/-- ADDRESS_LIST_READ_COMPLETION (R192): a list of another length than the order counts is no completion of its read, and
changes nothing (log 7). -/
def execAddressListReadCompletion (m : Moment) (addresses : Option (List Addr)) (s : State) :
    Host.Outcome State Fault Refusal :=
  event m (fun s =>
    match s.engine.executing with
    | some (slot, .addresses n _) =>
      if listComplete n addresses then completeRead slot (finishWithdraw slot addresses) s else s
    | _ => s) s

/-! ## The commands of the orders (log 6) -/

/-- A slot at which a scan takes an order: no slot is taken with the base 0, while the scan waits on a read, or while the
engine holds the slot (R179, R180). -/
def orderCommand (m : Moment) (slot : SlotId) (o : Order) (s : State) : Host.Outcome State Fault Refusal :=
  event m (fun s =>
    if s.base = 0 ∨ s.engine.executing.isSome = true ∨ holdsSlot slot s = true then s
    else endScan (takeOrder slot o (modEngine (fun e => { e with scan := some slot }) s))) s

/-- LOAD_PLAN (R183). -/
def execLoadPlan (m : Moment) (slot : SlotId) (a : Addr) (s : State) : Host.Outcome State Fault Refusal :=
  orderCommand m slot (.loadPlan a) s

/-- LOAD_PROGRAMS (R69, R185). -/
def execLoadPrograms (m : Moment) (slot : SlotId) (mask : BitVec 16) (a : Addr) (s : State) :
    Host.Outcome State Fault Refusal :=
  orderCommand m slot (.loadPrograms mask a) s

/-- OPEN_TRACK (R1, R186). -/
def execOpenTrack (m : Moment) (slot : SlotId) (track : Byte) (s : State) : Host.Outcome State Fault Refusal :=
  orderCommand m slot (.openTrack track) s

/-- CLOSE_TRACK_NOW (R2, R186). -/
def execCloseTrackNow (m : Moment) (slot : SlotId) (track : Byte) (s : State) : Host.Outcome State Fault Refusal :=
  orderCommand m slot (.closeTrack track CloseMode.now.byte) s

/-- CLOSE_TRACK_AFTER (R2, R187). -/
def execCloseTrackAfter (m : Moment) (slot : SlotId) (track : Byte) (s : State) : Host.Outcome State Fault Refusal :=
  orderCommand m slot (.closeTrack track CloseMode.after.byte) s

/-- ABANDON_PASSAGE (R39, R188). -/
def execAbandonPassage (m : Moment) (slot : SlotId) (id : PassageId) (s : State) : Host.Outcome State Fault Refusal :=
  orderCommand m slot (.abandonPassage id) s

/-- TEST_SHOT (R64, R190). -/
def execTestShot (m : Moment) (slot : SlotId) (station program : Byte) (speed : Word) (s : State) :
    Host.Outcome State Fault Refusal :=
  orderCommand m slot (.testShot station program speed) s

/-- GIVE_CHAIN (R147, R191). -/
def execGiveChain (m : Moment) (slot : SlotId) (head : Addr) (s : State) : Host.Outcome State Fault Refusal :=
  orderCommand m slot (.giveChain head) s

/-- WITHDRAW_CARDS (R148, R192). -/
def execWithdrawCards (m : Moment) (slot : SlotId) (count : Byte) (a : Addr) (s : State) :
    Host.Outcome State Fault Refusal :=
  orderCommand m slot (.withdrawCards count a) s

/-- DRAIN (R151, R189). -/
def execDrain (m : Moment) (slot : SlotId) (s : State) : Host.Outcome State Fault Refusal :=
  orderCommand m slot .drain s

/-- SNAPSHOT (R169, R193). -/
def execSnapshot (m : Moment) (slot : SlotId) (s : State) : Host.Outcome State Fault Refusal :=
  orderCommand m slot .snapshot s

/-- SET_REST with action REST (R76, R194). -/
def execSetRestRest (m : Moment) (slot : SlotId) (mask : Byte) (s : State) : Host.Outcome State Fault Refusal :=
  orderCommand m slot (.setRest mask 0) s

/-- SET_REST with action WAKE (R76, R194). -/
def execSetRestWake (m : Moment) (slot : SlotId) (mask : Byte) (s : State) : Host.Outcome State Fault Refusal :=
  orderCommand m slot (.setRest mask 1) s

end Sys2Proof.Machine
end

