-- ==== Sys2Proof/Machine/Registers.lean ====
section
/-! DEFINITION. The register commands (9.1, R173-R176, R167, R211): CONTROL with its actions, the exchange base, CAUSE,
NOTICE, the ignored writes; and the wrap of the gantry time (R205). -/

namespace Sys2Proof.Machine

open Sys2Proof

/-! ## CONTROL (R176) -/

/-- A CONTROL write sets the enables, in FAILED too, then performs its action; in FAILED the action reaches no block
(R176, R202). -/
def controlWrite (m : Moment) (enables : BitVec 5) (action : State → State) (s : State) :
    Host.Outcome State Fault Refusal :=
  let s := setEnables enables (taken m s)
  .next (if s.device = .failed then s else conclude (action s))

/-- CONTROL_NONE (R176): NONE or an undefined code (log 25). -/
def execControlNone (m : Moment) (enables : BitVec 5) (_code : BitVec 3) (s : State) : Host.Outcome State Fault Refusal :=
  .next (setEnables enables (taken m s))

/-- A LOOK reaches the tile mover, the report writer and the order engine (R176); their order is fixed (log 14). -/
def look (s : State) : State :=
  let s := lookWriter (lookMover s)
  lookEngine (if s.device = .failed then s else settle s)

/-- CONTROL_LOOK (R146, R164, R179). -/
def execControlLook (m : Moment) (enables : BitVec 5) (s : State) : Host.Outcome State Fault Refusal :=
  controlWrite m enables look s

/-- CONTROL_START (R199). -/
def execControlStart (m : Moment) (enables : BitVec 5) (s : State) : Host.Outcome State Fault Refusal :=
  let s := setEnables enables (taken m s)
  .next (if s.device = .ready then { s with device := .watching } else s)

/-- STOP in WATCHING (R200): the tracks are closed in track order, then the test requests are removed, then the test runs
are aborted (DESIGN CHOICE, log 40). -/
def stop (s : State) : State :=
  let s := allTracks.foldl (fun s t => closeNow t s) { s with device := .stopping }
  abortPassage 0 (removal 0 .abandoned s)

/-- CONTROL_STOP (R200). -/
def execControlStop (m : Moment) (enables : BitVec 5) (s : State) : Host.Outcome State Fault Refusal :=
  controlWrite m enables (fun s => if s.device = .watching then stop s else s) s

/-! ## The exchange base (R174, R175) -/

/-- Bytes are written to the exchange area from an offset on; a bus error raises EXCHANGE_READ with the offset of the
failing write (R175). -/
def writeArea (offset : Nat) (bytes : List Byte) (s : State) : State × Bool :=
  let a := offsetAddr s.base offset
  let n := (Memory.writeUntilError s.writeErrors s.mem a bytes).2
  let q := busWrite a bytes s
  if q.2 then (q.1, true) else (exchangeRead (offset + n) q.1, false)

/-- The identity block is written, the integrity byte last (R175). -/
def writeIdentity (s : State) : State :=
  let q := writeArea 0 identityBytes s
  if q.2 then (writeArea 255 [integrityByte] q.1).1 else q.1

/-- EXCHANGE_BASE_LOW_WRITE (R174). -/
def execExchangeBaseLowWrite (m : Moment) (value : Word) (s : State) : Host.Outcome State Fault Refusal :=
  let s := taken m s
  .next (if loadable s then { s with stagedLow := (value >>> 12).setWidth 20 } else s)

/-- A write to EXCHANGE BASE HIGH is taken (R174). -/
def baseTaken (s : State) : Bool := loadable s && s.engine.scan.isNone && s.engine.parked.isEmpty

/-- The written high half joined with the staged low half. -/
def joinedBase (high : Word) (low : BitVec 20) : Addr := (high ++ low ++ (0 : BitVec 12) : BitVec 64)

/-- A taken write: the base, the writer moved to the new area (R171), the identity block (R175). -/
def takeBase (high : Word) (s : State) : State :=
  let s := modWriter (fun w => { w with rowCursor := 0, notices := [], overflow := false })
    { s with base := joinedBase high s.stagedLow }
  if s.base = 0 then s else writeIdentity s

/-- EXCHANGE_BASE_HIGH_WRITE (R174). -/
def execExchangeBaseHighWrite (m : Moment) (value : Word) (s : State) : Host.Outcome State Fault Refusal :=
  event m (fun s => if baseTaken s then takeBase value s else s) s

/-! ## CAUSE and NOTICE (R211, R212, R167) -/

/-- A message at the end of a write to CAUSE after which the interrupt condition still holds (R212). -/
def remindIrq (s : State) : State := if irqCondition s then emit .msi s else s

/-- CAUSE_WRITE (R211, R212). -/
def execCauseWrite (m : Moment) (value : Word) (s : State) : Host.Outcome State Fault Refusal :=
  let s := taken m s
  .next (remindIrq { s with latches := clearLatches value s.latches })

/-- The notice queue is popped; overflow clears at the read that empties it (R167). -/
def popNotice (w : ReportWriter) : ReportWriter :=
  match w.notices with
  | [] => w
  | _ :: rest => { w with notices := rest, overflow := if rest.isEmpty then false else w.overflow }

/-- NOTICE_READ (R167). -/
def execNoticeRead (m : Moment) (s : State) : Host.Outcome State Fault Refusal :=
  let s := taken m s
  .next (modWriter popNotice (emit (.registerRead (noticeWord s)) s))

/-- REGISTER_WRITE_IGNORED (R173). -/
def execRegisterWriteIgnored (m : Moment) (_register : ReadOnlyRegister) (_value : Word) (s : State) :
    Host.Outcome State Fault Refusal :=
  .next (taken m s)

/-! ## The time base (R205) -/

/-- GANTRY_TIME_WRAP: after 281,474,976,710,655 the count becomes 0, in every device state (R205, log 29). -/
def execGantryTimeWrap (m : Moment) (s : State) : Host.Outcome State Fault Refusal :=
  .next { taken m s with gantryTime := 0 }

end Sys2Proof.Machine
end

