-- ==== Sys2Proof/Machine/Resets.lean ====
section
/-! DEFINITION. Power-on, link reset and soft reset (R203, R204). -/

namespace Sys2Proof.Machine

open Sys2Proof

/-- A wheel filter at a reset: its line keeps its level (log 19). -/
def WheelFilter.atReset (f : WheelFilter) : WheelFilter := { WheelFilter.reset with asserted := f.asserted }

/-- A track input unit at a reset (R20). -/
def TrackUnit.atReset (u : TrackUnit) : TrackUnit :=
  { TrackUnit.reset with
    uOuter := u.uOuter.atReset, uInner := u.uInner.atReset, dInner := u.dInner.atReset, dOuter := u.dOuter.atReset }

/-- Every block is brought to its reset state, the routing table emptied, the latched CAUSE bits cleared, the device
DORMANT (R20, R46, R67, R97, R117, R134, R155, R172, R197, R204, R213). The gantry time, the exchange base, its staged
half and the enables are kept; so are host memory and what is outside the part (log 19). -/
def resetBlocks (s : State) : State :=
  { State.reset with
    gantryTime := s.gantryTime
    tracks := s.tracks.map TrackUnit.atReset
    base := s.base
    stagedLow := s.stagedLow
    enables := s.enables
    mem := s.mem
    readErrors := s.readErrors
    writeErrors := s.writeErrors
    outputs := s.outputs
    freeCount := s.freeCount
    pending := s.pending }

/-- The self check's verdict: DORMANT, or FAILED with reason SELF CHECK and CAUSE.FAILED latched (R203, R204). -/
def selfChecked (passed : Bool) (s : State) : State :=
  if passed then s else latchFailed { s with device := .failed, failReason := .selfCheck }

/-- A power-on or a link reset (R203). A card write in progress ends where it stands, short of its owner byte
(R155). -/
def hardReset (selfCheck : Bool) (s : State) : State :=
  selfChecked selfCheck
    { resetBlocks (stopCardWrite false s) with gantryTime := 0, base := 0, stagedLow := 0, enables := 0 }

/-- POWER_ON (R203). -/
def execPowerOn (m : Moment) (selfCheck : Bool) (s : State) : Host.Outcome State Fault Refusal :=
  .next (hardReset selfCheck (taken m s))

/-- LINK_RESET (R203). -/
def execLinkReset (m : Moment) (selfCheck : Bool) (s : State) : Host.Outcome State Fault Refusal :=
  .next (hardReset selfCheck (taken m s))

/-- The self check is made again only in FAILED with reason SELF CHECK (R204). -/
def checkAgain (s : State) : Bool := s.device == .failed && s.failReason == .selfCheck

/-- A soft reset (R204): on a failed repeated self check it ends there; else the identity block is written when the base
is valid. -/
def softReset (selfCheck : Bool) (s : State) : State :=
  let t := resetBlocks (stopCardWrite false s)
  if checkAgain s = true ∧ selfCheck = false then selfChecked false t
  else if t.base = 0 then t
  else writeIdentity t

/-- CONTROL_SOFT_RESET (R204), the enables written first (R176). -/
def execControlSoftReset (m : Moment) (enables : BitVec 5) (selfCheck : Bool) (s : State) :
    Host.Outcome State Fault Refusal :=
  .next (softReset selfCheck (setEnables enables (taken m s)))

end Sys2Proof.Machine
end

