-- ==== Sys2Proof/Machine/TimeBase.lean ====
section
/-! DEFINITION. What a step does on an empty queue (log 2): the expiries that have come, one of which is taken, or one
microsecond counted (R205). -/

namespace Sys2Proof.Machine

open Sys2Proof

/-- The Moment of an expiry taken on an empty queue: now, with no host write and no bus error (log 2). -/
def idleMoment (s : State) : Moment := { now := s.gantryTime, hostWrites := [], readErrors := [], writeErrors := [] }

/-- A command where a timer has expired. -/
def whenExpired (timer : Option Time) (s : State) (c : Instr) : List Instr :=
  if expired timer s.gantryTime then [c] else []

def allPairs : List Pair := [.u, .d]

/-- The time at which the head of a pair's queue expires (R10). -/
def axleTimer (t : TrackId) (p : Pair) (s : State) : Option Time :=
  (s.tracks[t].queue p).head?.map fun first => plusUs first (pairWindow t p s)

/-- The expiries of a track that have come. -/
def trackDue (s : State) (t : TrackId) : List Instr :=
  let m := idleMoment s
  let u := s.tracks[t]
  allSensors.flatMap (fun w => whenExpired (u.filter w).bounce s (.bounceTimerExpiry m t w)) ++
    whenExpired u.settleTimer s (.settleTimerExpiry m t) ++ whenExpired u.ignoreTimer s (.ignoreTimerExpiry m t) ++
    allPairs.flatMap (fun p => whenExpired (axleTimer t p s) s (.axleEntryExpiry m t p)) ++
    whenExpired u.curtain.stuckTimer s (.stuckTimerExpiry m t) ++
    whenExpired u.curtain.silenceTimer s (.curtainSilenceExpiry m t)

/-- The instant a run waits for in a PAUSE. -/
def StepWait.pauseTimer : StepWait → Option Time
  | .pause t => some t
  | .none => Option.none
  | .flash => Option.none
  | .exposure _ => Option.none
  | .await _ => Option.none

/-- The instant a run's await timer expires. -/
def StepWait.awaitTimer : StepWait → Option Time
  | .await t => some t
  | .none => Option.none
  | .flash => Option.none
  | .exposure _ => Option.none
  | .pause _ => Option.none

/-- The frame timer of an awaited entry. -/
def Awaited.timer (a : Awaited) : Option Time :=
  match a.phase with
  | .opened => none
  | .waiting t => some t

/-- The expiries of a station and of its port that have come. -/
def stationDue (s : State) (st : StationId) : List Instr :=
  let m := idleMoment s
  let x := s.stations[st]
  whenExpired x.restTimer s (.restTimerExpiry m st) ++ whenExpired x.wakeTimer s (.wakeLimitExpiry m st) ++
    whenExpired (s.openExposures[st].map OpenExposure.finish) s (.exposureEnd m st) ++
    whenExpired ((lingeringEnd st s).map Lingering.finish) s (.exposureEnd m st) ++
    whenExpired (x.run.bind fun r => r.wait.pauseTimer) s (.pauseEnd m st) ++
    whenExpired (x.run.bind fun r => r.wait.awaitTimer) s (.awaitTimerExpiry m st) ++
    s.ports[st].awaited.flatMap fun a => whenExpired a.timer s (.frameTimerExpiry m st a.number)

/-- The expiries of a strobe unit that have come. -/
def unitDue (s : State) (u : UnitId) : List Instr :=
  let m := idleMoment s
  whenExpired s.units[u].rechargeTimer s (.rechargeTimerExpiry m u) ++
    whenExpired s.units[u].pulseEnd s (.pulseEnd m u)

/-- The tail timer of a context that has expired. -/
def contextDue (s : State) (k : ContextId) : List Instr :=
  whenExpired (s.passages[k].bind fun p => p.tail.map TailTimer.expiry) s (.tailTimerExpiry (idleMoment s) k)

/-- Every expiry that has come. -/
def dueCommands (s : State) : List Instr :=
  allTracks.flatMap (trackDue s) ++ allContexts.flatMap (contextDue s) ++
    whenExpired s.dueTimer s (.dueTimerExpiry (idleMoment s)) ++ allStations.flatMap (stationDue s) ++
    allUnits.flatMap (unitDue s) ++
    if s.waiting.any fun r => reached r.deadline s.gantryTime then [.flashDeadline (idleMoment s)] else []

/-- Of the expiries that have come, the one taken first is a free choice (log 2). -/
def chooseDue (s : State) : Option (Instr × State) :=
  match dueCommands s with
  | [] => none
  | [c] => some (c, s)
  | c :: rest =>
    let r := takeFreeNat s
    some ((c :: rest).getD (r.1 % (rest.length + 1)) c, r.2)

/-- The time base counts one microsecond; after 281,474,976,710,655 the count becomes 0 (R205). -/
def countUs (s : State) : State := { s with gantryTime := s.gantryTime + 1 }

end Sys2Proof.Machine
end

