-- ==== Sys2Proof/Machine/Dispatch.lean ====
section
/-! DEFINITION. The effect of a command on everything but the queue: one arm for each constructor of Instr. -/

namespace Sys2Proof.Machine

open Sys2Proof

def exec (i : Instr) (s : State) : Host.Outcome State Fault Refusal :=
  match i with
  | .powerOn m selfCheck => Sys2Proof.Machine.execPowerOn m selfCheck s
  | .linkReset m selfCheck => Sys2Proof.Machine.execLinkReset m selfCheck s
  | .controlNone m enables code => Sys2Proof.Machine.execControlNone m enables code s
  | .controlLook m enables => Sys2Proof.Machine.execControlLook m enables s
  | .controlStart m enables => Sys2Proof.Machine.execControlStart m enables s
  | .controlStop m enables => Sys2Proof.Machine.execControlStop m enables s
  | .controlSoftReset m enables selfCheck => Sys2Proof.Machine.execControlSoftReset m enables selfCheck s
  | .exchangeBaseLowWrite m value => Sys2Proof.Machine.execExchangeBaseLowWrite m value s
  | .exchangeBaseHighWrite m value => Sys2Proof.Machine.execExchangeBaseHighWrite m value s
  | .causeWrite m value => Sys2Proof.Machine.execCauseWrite m value s
  | .noticeRead m => Sys2Proof.Machine.execNoticeRead m s
  | .registerWriteIgnored m register value => Sys2Proof.Machine.execRegisterWriteIgnored m register value s
  | .assertingEdge m track sensor => Sys2Proof.Machine.execAssertingEdge m track sensor s
  | .releasingEdge m track sensor => Sys2Proof.Machine.execReleasingEdge m track sensor s
  | .bounceTimerExpiry m track sensor => Sys2Proof.Machine.execBounceTimerExpiry m track sensor s
  | .settleTimerExpiry m track => Sys2Proof.Machine.execSettleTimerExpiry m track s
  | .ignoreTimerExpiry m track => Sys2Proof.Machine.execIgnoreTimerExpiry m track s
  | .axleEntryExpiry m track pair => Sys2Proof.Machine.execAxleEntryExpiry m track pair s
  | .scanMessage m track beams => Sys2Proof.Machine.execScanMessage m track beams s
  | .stuckTimerExpiry m track => Sys2Proof.Machine.execStuckTimerExpiry m track s
  | .curtainSilenceExpiry m track => Sys2Proof.Machine.execCurtainSilenceExpiry m track s
  | .tailTimerExpiry m context => Sys2Proof.Machine.execTailTimerExpiry m context s
  | .dueTimerExpiry m => Sys2Proof.Machine.execDueTimerExpiry m s
  | .readyAnswer m station => Sys2Proof.Machine.execReadyAnswer m station s
  | .restTimerExpiry m station => Sys2Proof.Machine.execRestTimerExpiry m station s
  | .wakeLimitExpiry m station => Sys2Proof.Machine.execWakeLimitExpiry m station s
  | .exposureEnd m station => Sys2Proof.Machine.execExposureEnd m station s
  | .pauseEnd m station => Sys2Proof.Machine.execPauseEnd m station s
  | .awaitTimerExpiry m station => Sys2Proof.Machine.execAwaitTimerExpiry m station s
  | .strobeReady m unit => Sys2Proof.Machine.execStrobeReady m unit s
  | .rechargeTimerExpiry m unit => Sys2Proof.Machine.execRechargeTimerExpiry m unit s
  | .pulseEnd m unit => Sys2Proof.Machine.execPulseEnd m unit s
  | .flashDeadline m => Sys2Proof.Machine.execFlashDeadline m s
  | .frameArrival m station frame => Sys2Proof.Machine.execFrameArrival m station frame s
  | .frameTimerExpiry m station number => Sys2Proof.Machine.execFrameTimerExpiry m station number s
  | .takeReadCompletion m card => Sys2Proof.Machine.execTakeReadCompletion m card s
  | .markingCompletion m => Sys2Proof.Machine.execMarkingCompletion m s
  | .writeCompletion m => Sys2Proof.Machine.execWriteCompletion m s
  | .writeBusError m landed => Sys2Proof.Machine.execWriteBusError m landed s
  | .followReadCompletion m next => Sys2Proof.Machine.execFollowReadCompletion m next s
  | .probeReadCompletion m owner => Sys2Proof.Machine.execProbeReadCompletion m owner s
  | .loadPlan m slot address => Sys2Proof.Machine.execLoadPlan m slot address s
  | .planReadCompletion m plan => Sys2Proof.Machine.execPlanReadCompletion m plan s
  | .loadPrograms m slot mask address => Sys2Proof.Machine.execLoadPrograms m slot mask address s
  | .programTableReadCompletion m table => Sys2Proof.Machine.execProgramTableReadCompletion m table s
  | .openTrack m slot track => Sys2Proof.Machine.execOpenTrack m slot track s
  | .closeTrackNow m slot track => Sys2Proof.Machine.execCloseTrackNow m slot track s
  | .closeTrackAfter m slot track => Sys2Proof.Machine.execCloseTrackAfter m slot track s
  | .abandonPassage m slot id => Sys2Proof.Machine.execAbandonPassage m slot id s
  | .testShot m slot station program speed => Sys2Proof.Machine.execTestShot m slot station program speed s
  | .giveChain m slot head => Sys2Proof.Machine.execGiveChain m slot head s
  | .withdrawCards m slot count address => Sys2Proof.Machine.execWithdrawCards m slot count address s
  | .addressListReadCompletion m addresses => Sys2Proof.Machine.execAddressListReadCompletion m addresses s
  | .drain m slot => Sys2Proof.Machine.execDrain m slot s
  | .snapshot m slot => Sys2Proof.Machine.execSnapshot m slot s
  | .setRestRest m slot mask => Sys2Proof.Machine.execSetRestRest m slot mask s
  | .setRestWake m slot mask => Sys2Proof.Machine.execSetRestWake m slot mask s
  | .gantryTimeWrap m => Sys2Proof.Machine.execGantryTimeWrap m s

end Sys2Proof.Machine
end

