-- ==== Sys2Proof/Machine/Step.lean ====
section
/-! DEFINITION. A step of the part: the command at the front of the queue, or, on an empty queue, an expiry that has come
or one microsecond of gantry time (log 2). -/

namespace Sys2Proof.Machine

open Sys2Proof

/-- What a step does on an empty queue (log 2). -/
def idle (s : State) : Host.Outcome State Fault Refusal :=
  match chooseDue s with
  | none => .next (countUs s)
  | some (c, t) => exec c t

/-- One step. -/
def step (s : State) : Host.Outcome State Fault Refusal :=
  match s.pending with
  | [] => idle s
  | c :: rest => exec c { s with pending := rest }

/-- The command a table word spells, put at the front of the queue; no word spells one (log 24). -/
def State.withFetchWord (s : State) (nbits w : Nat) : State :=
  match decodeTableWord nbits w with
  | none => s
  | some c => { s with pending := c :: s.pending }

end Sys2Proof.Machine
end

