-- ==== Sys2Proof/Safety.lean ====
section
/-! DEFINITION. What is said of the part as a whole: the quiet of a FAILED device, the commands that reach no block there,
the capacities, the fields of a row and of a plan, and the words the statements about orders and events share. -/

namespace Sys2Proof.Machine

open Sys2Proof

/-! ## FAILED -/

/-- A track without any state but its plan and its lines (R2). -/
def quietTrack (u : TrackUnit) : Bool := u == u.drop

/-- A station without run, timers and marks, OFFLINE (R96). -/
def quietStation (x : Station) : Bool := x == x.fail

/-- A unit OUT, its fire line dropped, its supply disabled (R116). -/
def quietUnit (u : StrobeUnit) : Bool := u == u.fail

/-- Every block is as the entry into FAILED leaves it (R202). -/
def quiescent (s : State) : Bool :=
  allTracks.all (fun t => quietTrack s.tracks[t]) && allContexts.all (fun k => s.passages[k].isNone) &&
    s.schedule.isEmpty && s.dueTimer.isNone && allStations.all (fun st => quietStation s.stations[st]) &&
    allUnits.all (fun u => quietUnit s.units[u]) && s.waiting.isEmpty &&
    allStations.all (fun st => s.openExposures[st].isNone) && s.lingering.isEmpty &&
    allStations.all (fun st => s.ports[st].awaited.isEmpty) &&
    s.mover == s.mover.fail && s.writer.held.isEmpty && s.engine == .reset && s.undone.isEmpty

/-- In FAILED every block is quiet (R202). -/
def FailedQuiet (s : State) : Prop := s.device = .failed → quiescent s = true

/-! ## Capacities -/

/-- Seven kinds of queue and list are within the size the manual gives them: schedule 48 (R47), axle queues 4 (R8),
ready tile queue 8 (R129), withdraw list 16 (R148), held records 8 (R161), notices 64 (R166), parked orders 4 (R178). -/
def withinCapacities (s : State) : Bool :=
  decide (s.schedule.length ≤ 48) &&
    allTracks.all (fun t => decide (s.tracks[t].uQueue.length ≤ 4) && decide (s.tracks[t].dQueue.length ≤ 4)) &&
    decide (s.mover.queue.length ≤ 8) && decide (s.mover.withdrawn.length ≤ 16) &&
    decide (s.writer.held.length ≤ 8) && decide (s.writer.notices.length ≤ 64) && decide (s.engine.parked.length ≤ 4)

/-! ## Layouts -/

/-- The `n` bytes of a row from its byte `off` on, of the body that stands in its bytes 8 to 127 (11.5). -/
def rowField (body : List Byte) (off n : Nat) : List Byte := (body.drop (off - 8)).take n

/-- The field at byte `pos` of track entry `t` of a plan is out of range (R183): of a disabled track `enabled` alone is
checked. -/
def trackFieldBad (plan : List Byte) (t pos : Nat) : Prop :=
  let at_ (n length : Nat) : Nat := leAt plan (0x010 + 16 * t + n) length
  (pos = 0 ∧ 1 < at_ 0 1) ∨
    (at_ 0 1 ≠ 0 ∧
      ((pos = 1 ∧ 22 < at_ 1 1) ∨ (pos = 2 ∧ ¬(at_ 1 1 + 1 ≤ at_ 2 1 ∧ at_ 2 1 ≤ 23)) ∨
       (pos = 3 ∧ ¬(1 ≤ at_ 3 1 ∧ at_ 3 1 ≤ 8)) ∨ (pos = 4 ∧ ¬(500 ≤ at_ 4 2 ∧ at_ 4 2 ≤ 5000)) ∨
       (pos = 6 ∧ ¬(500 ≤ at_ 6 2 ∧ at_ 6 2 ≤ 5000)) ∨ (pos = 8 ∧ at_ 8 2 ≠ 0 ∧ ¬(20 ≤ at_ 8 2 ∧ at_ 8 2 ≤ 2000)) ∨
       (pos = 10 ∧ 10000 < at_ 10 2) ∨ (pos = 12 ∧ ¬(1 ≤ at_ 12 1 ∧ at_ 12 1 ≤ 60)) ∨
       (pos = 13 ∧ ¬(2 ≤ at_ 13 1 ∧ at_ 13 1 ≤ 120)) ∨ (pos = 14 ∧ ¬(5000 ≤ at_ 14 2 ∧ at_ 14 2 ≤ 50000))))

/-- The field at byte `pos` of station entry `st` of a plan is out of range (R183, R216). -/
def stationFieldBad (plan : List Byte) (st pos : Nat) : Prop :=
  let at_ (n length : Nat) : Nat := leAt plan (0x050 + 80 * st + n) length
  let offset := (BitVec.ofNat 32 (at_ 4 4)).toInt
  (pos = 0 ∧ 3 < at_ 0 1) ∨ (pos = 1 ∧ ¬(1 ≤ at_ 1 1 ∧ at_ 1 1 ≤ 3)) ∨ (pos = 2 ∧ at_ 2 1 ≠ 255 ∧ 15 < at_ 2 1) ∨
    (pos = 3 ∧ at_ 3 1 ≠ 255 ∧ 15 < at_ 3 1) ∨ (pos = 4 ∧ (offset < -60000 ∨ 60000 < offset ∨ offset = 0)) ∨
    (pos = 8 ∧ 20000 < at_ 8 2) ∨ (pos = 10 ∧ 5000 < at_ 10 2) ∨ (pos = 12 ∧ 63 < at_ 12 1) ∨
    (pos = 13 ∧ 1 < at_ 13 1) ∨ (pos = 14 ∧ 4095 < at_ 14 2) ∨ (pos = 16 ∧ ¬(1 ≤ at_ 16 2 ∧ at_ 16 2 ≤ 1024)) ∨
    (pos = 18 ∧ ¬(1 ≤ at_ 18 2 ∧ at_ 18 2 ≤ 1024)) ∨ (pos = 20 ∧ 4095 < at_ 20 2) ∨ (pos = 22 ∧ 600 < at_ 22 2) ∨
    (pos = 24 ∧ ¬(10 ≤ at_ 24 2 ∧ at_ 24 2 ≤ 5000)) ∨ (pos = 26 ∧ at_ 26 1 ≠ 0 ∧ ¬(5 ≤ at_ 26 1 ∧ at_ 26 1 ≤ 200)) ∨
    ∃ beam, beam < 24 ∧ pos = 32 + 2 * beam ∧ 4095 < at_ (32 + 2 * beam) 2

/-- The field at an offset of a plan is out of range (R183, R207, R216). -/
def fieldBad (plan : List Byte) (o : Nat) : Prop :=
  let min_ := leAt plan 4 2
  let max_ := leAt plan 6 2
  let limit := leAt plan 2 1
  (o = 2 ∧ ¬(2 ≤ limit ∧ limit ≤ 64)) ∨ (o = 4 ∧ ¬(50 ≤ min_ ∧ min_ ≤ 3000)) ∨ (o = 6 ∧ ¬(min_ ≤ max_ ∧ max_ ≤ 3000)) ∨
    (∃ t pos, t < 4 ∧ o = 0x010 + 16 * t + pos ∧ trackFieldBad plan t pos) ∨
    (∃ st pos, st < 8 ∧ o = 0x050 + 80 * st + pos ∧ stationFieldBad plan st pos) ∨
    (∃ u, u < 6 ∧
      ((o = 0x2D0 + 4 * u ∧ ¬(1 ≤ leAt plan o 1 ∧ leAt plan o 1 ≤ 15)) ∨
       (o = 0x2D0 + 4 * u + 2 ∧ ¬(50 ≤ leAt plan o 2 ∧ leAt plan o 2 ≤ 5000)))) ∨
    ∃ c, c < limit ∧ c < 64 ∧ o = 0x2E8 + 2 * c ∧ (1 < leAt plan o 1 ∨ 1 < leAt plan (o + 1) 1)

/-! ## Host memory -/

/-- An address lies outside the `n` bytes from `a` on. -/
def outside (x : Nat) (a : Addr) (n : Nat) : Prop := ∀ i, i < n → x ≠ (offsetAddr a i).toNat

/-- The bus answers no write to the `n` bytes from `a` on with an error. -/
def writable (a : Addr) (n : Nat) (s : State) : Prop := ∀ i, i < n → (offsetAddr a i).toNat ∉ s.writeErrors

/-! ## Commands -/

/-- The Moment of a command. -/
def momentOf : Instr → Moment
  | .powerOn m _ => m
  | .linkReset m _ => m
  | .controlNone m _ _ => m
  | .controlLook m _ => m
  | .controlStart m _ => m
  | .controlStop m _ => m
  | .controlSoftReset m _ _ => m
  | .exchangeBaseLowWrite m _ => m
  | .exchangeBaseHighWrite m _ => m
  | .causeWrite m _ => m
  | .noticeRead m => m
  | .registerWriteIgnored m _ _ => m
  | .assertingEdge m _ _ => m
  | .releasingEdge m _ _ => m
  | .bounceTimerExpiry m _ _ => m
  | .settleTimerExpiry m _ => m
  | .ignoreTimerExpiry m _ => m
  | .axleEntryExpiry m _ _ => m
  | .scanMessage m _ _ => m
  | .stuckTimerExpiry m _ => m
  | .curtainSilenceExpiry m _ => m
  | .tailTimerExpiry m _ => m
  | .dueTimerExpiry m => m
  | .readyAnswer m _ => m
  | .restTimerExpiry m _ => m
  | .wakeLimitExpiry m _ => m
  | .exposureEnd m _ => m
  | .pauseEnd m _ => m
  | .awaitTimerExpiry m _ => m
  | .strobeReady m _ => m
  | .rechargeTimerExpiry m _ => m
  | .pulseEnd m _ => m
  | .flashDeadline m => m
  | .frameArrival m _ _ => m
  | .frameTimerExpiry m _ _ => m
  | .takeReadCompletion m _ => m
  | .markingCompletion m => m
  | .writeCompletion m => m
  | .writeBusError m _ => m
  | .followReadCompletion m _ => m
  | .probeReadCompletion m _ => m
  | .loadPlan m _ _ => m
  | .planReadCompletion m _ => m
  | .loadPrograms m _ _ _ => m
  | .programTableReadCompletion m _ => m
  | .openTrack m _ _ => m
  | .closeTrackNow m _ _ => m
  | .closeTrackAfter m _ _ => m
  | .abandonPassage m _ _ => m
  | .testShot m _ _ _ _ => m
  | .giveChain m _ _ => m
  | .withdrawCards m _ _ _ => m
  | .addressListReadCompletion m _ => m
  | .drain m _ => m
  | .snapshot m _ => m
  | .setRestRest m _ _ => m
  | .setRestWake m _ _ => m
  | .gantryTimeWrap m => m

/-- The commands that reach no block in FAILED and change nothing there: all but the resets, the writes of CONTROL and
CAUSE, the NOTICE read, the ignored writes, the level of a wheel line, and the wrap of the count (R202). -/
def stoppedInFailed : Instr → Bool
  | .powerOn _ _ => false
  | .linkReset _ _ => false
  | .controlNone _ _ _ => false
  | .controlLook _ _ => false
  | .controlStart _ _ => false
  | .controlStop _ _ => false
  | .controlSoftReset _ _ _ => false
  | .exchangeBaseLowWrite _ _ => true
  | .exchangeBaseHighWrite _ _ => true
  | .causeWrite _ _ => false
  | .noticeRead _ => false
  | .registerWriteIgnored _ _ _ => false
  | .assertingEdge _ _ _ => false
  | .releasingEdge _ _ _ => false
  | .bounceTimerExpiry _ _ _ => true
  | .settleTimerExpiry _ _ => true
  | .ignoreTimerExpiry _ _ => true
  | .axleEntryExpiry _ _ _ => true
  | .scanMessage _ _ _ => true
  | .stuckTimerExpiry _ _ => true
  | .curtainSilenceExpiry _ _ => true
  | .tailTimerExpiry _ _ => true
  | .dueTimerExpiry _ => true
  | .readyAnswer _ _ => true
  | .restTimerExpiry _ _ => true
  | .wakeLimitExpiry _ _ => true
  | .exposureEnd _ _ => true
  | .pauseEnd _ _ => true
  | .awaitTimerExpiry _ _ => true
  | .strobeReady _ _ => true
  | .rechargeTimerExpiry _ _ => true
  | .pulseEnd _ _ => true
  | .flashDeadline _ => true
  | .frameArrival _ _ _ => true
  | .frameTimerExpiry _ _ _ => true
  | .takeReadCompletion _ _ => true
  | .markingCompletion _ => true
  | .writeCompletion _ => true
  | .writeBusError _ _ => true
  | .followReadCompletion _ _ => true
  | .probeReadCompletion _ _ => true
  | .loadPlan _ _ _ => true
  | .planReadCompletion _ _ => true
  | .loadPrograms _ _ _ _ => true
  | .programTableReadCompletion _ _ => true
  | .openTrack _ _ _ => true
  | .closeTrackNow _ _ _ => true
  | .closeTrackAfter _ _ _ => true
  | .abandonPassage _ _ _ => true
  | .testShot _ _ _ _ _ => true
  | .giveChain _ _ _ => true
  | .withdrawCards _ _ _ _ => true
  | .addressListReadCompletion _ _ => true
  | .drain _ _ => true
  | .snapshot _ _ => true
  | .setRestRest _ _ _ => true
  | .setRestWake _ _ _ => true
  | .gantryTimeWrap _ => false

/-- The slot and the order of an order command. -/
def orderIn : Instr → Option (SlotId × Order)
  | .loadPlan _ slot a => some (slot, .loadPlan a)
  | .loadPrograms _ slot mask a => some (slot, .loadPrograms mask a)
  | .openTrack _ slot t => some (slot, .openTrack t)
  | .closeTrackNow _ slot t => some (slot, .closeTrack t 0)
  | .closeTrackAfter _ slot t => some (slot, .closeTrack t 1)
  | .abandonPassage _ slot id => some (slot, .abandonPassage id)
  | .testShot _ slot st p v => some (slot, .testShot st p v)
  | .giveChain _ slot head => some (slot, .giveChain head)
  | .withdrawCards _ slot n a => some (slot, .withdrawCards n a)
  | .drain _ slot => some (slot, .drain)
  | .snapshot _ slot => some (slot, .snapshot)
  | .setRestRest _ slot mask => some (slot, .setRest mask 0)
  | .setRestWake _ slot mask => some (slot, .setRest mask 1)
  | _ => none

/-! ## Events and orders -/

/-- A state in which the end of an event tests nothing: not FAILED, not STOPPING, no DRAIN parked. -/
def calm (s : State) : Bool :=
  s.device != .failed && s.device != .stopping && !s.engine.parked.any fun p => p.waits == .drain

/-- A slot at which an order can be taken: the device not FAILED, a valid base, the scan waiting on nothing, the slot not
held, and no bus error at its state byte (R179, R180). -/
def slotFree (slot : SlotId) (s : State) : Bool :=
  s.device != .failed && s.base != 0 && s.engine.executing.isNone && !holdsSlot slot s &&
    !s.writeErrors.contains (slotAddr slot s).toNat

/-- A slot's order is taken: the scan stands at it, its state byte reads TAKEN (R180). -/
def slotTaken (slot : SlotId) (s : State) : State :=
  (busWrite (slotAddr slot s) [stateTaken] (modEngine (fun e => { e with scan := some slot }) s)).1

/-- The end of an order's event: the tests of the end of an order, the end of the scan, the tests of the end of an
event. -/
def orderEnded (s : State) : State := conclude (endScan (if s.device = .failed then s else settle s))

end Sys2Proof.Machine
end

