-- ==== Sys2Proof/Certificates/Slice0/Obligations.lean ====
section
/-! DEFINITION. The statements for the provers. In a statement about a command, `b` is the state in which the command is
taken (`taken m s`: its Moment has arrived, log 1), and the next state is given whole, so that what it does not name is
unchanged. -/

open Sys2Proof Sys2Proof.Machine

/-! ## The part as a whole -/

/-- A step takes the command at the front of the queue. -/
def Obligations.StepTakesFront : Prop :=
  ∀ (s : State) (c : Instr) (rest : List Instr), s.pending = c :: rest → step s = exec c { s with pending := rest }

/-- On an empty queue a step takes an expiry that has come, or, where none has, counts one microsecond. Which of
several expiries is taken first is the model's free choice (log 2). An expiry has come where its timer runs and its
instant is reached: of a wheel filter, a track, an axle queue's head, a curtain, a passage's tail, the due timer, a
station, an open exposure, a run's wait, an awaited frame, a strobe unit, or a waiting flash request; no other command
is among those due (log 2). -/
def Obligations.EmptyQueueStep : Prop :=
  (∀ s : State, s.pending = [] →
    (dueCommands s = [] → step s = .next { s with gantryTime := s.gantryTime + 1 }) ∧
    (∀ c, dueCommands s = [c] → step s = exec c s) ∧
    (dueCommands s ≠ [] → ∃ c ∈ dueCommands s, ∃ t : State,
      (t = s ∨ t = { s with freeCount := s.freeCount + 1 }) ∧ step s = exec c t)) ∧
  (∀ (s : State) (c : Instr),
    let m : Moment := { now := s.gantryTime, hostWrites := [], readErrors := [], writeErrors := [] }
    let came (timer : Option Time) : Prop := ∃ x, timer = some x ∧ reached x s.gantryTime = true
    let ofTrack (t : TrackId) : Prop :=
      let u := s.tracks[t]
      (c = .bounceTimerExpiry m t .uOuter ∧ came u.uOuter.bounce) ∨
      (c = .bounceTimerExpiry m t .uInner ∧ came u.uInner.bounce) ∨
      (c = .bounceTimerExpiry m t .dInner ∧ came u.dInner.bounce) ∨
      (c = .bounceTimerExpiry m t .dOuter ∧ came u.dOuter.bounce) ∨
      (c = .settleTimerExpiry m t ∧ came u.settleTimer) ∨ (c = .ignoreTimerExpiry m t ∧ came u.ignoreTimer) ∨
      (∃ first rest, c = .axleEntryExpiry m t .u ∧ u.uQueue = first :: rest ∧
        reached (plusUs first (u.plan.uSpacing * 1000000 / 1389)) s.gantryTime = true) ∨
      (∃ first rest, c = .axleEntryExpiry m t .d ∧ u.dQueue = first :: rest ∧
        reached (plusUs first (u.plan.dSpacing * 1000000 / 1389)) s.gantryTime = true) ∨
      (c = .stuckTimerExpiry m t ∧ came u.curtain.stuckTimer) ∨
      (c = .curtainSilenceExpiry m t ∧ came u.curtain.silenceTimer)
    let ofStation (st : StationId) : Prop :=
      let x := s.stations[st]
      (c = .restTimerExpiry m st ∧ came x.restTimer) ∨ (c = .wakeLimitExpiry m st ∧ came x.wakeTimer) ∨
      (c = .exposureEnd m st ∧ ((∃ e, s.openExposures[st] = some e ∧ reached e.finish s.gantryTime = true) ∨
        ∃ e ∈ s.lingering, e.station = st ∧ reached e.finish s.gantryTime = true)) ∨
      (∃ r instant, x.run = some r ∧ reached instant s.gantryTime = true ∧
        ((c = .pauseEnd m st ∧ r.wait = .pause instant) ∨ (c = .awaitTimerExpiry m st ∧ r.wait = .await instant))) ∨
      (∃ a ∈ s.ports[st].awaited, ∃ instant, c = .frameTimerExpiry m st a.number ∧ a.phase = .waiting instant ∧
        reached instant s.gantryTime = true)
    c ∈ dueCommands s ↔
      (∃ t, ofTrack t) ∨
      (∃ (k : ContextId) (p : Passage) (tail : TailTimer), c = .tailTimerExpiry m k ∧ s.passages[k] = some p ∧
        p.tail = some tail ∧ reached tail.expiry s.gantryTime = true) ∨
      (c = .dueTimerExpiry m ∧ came s.dueTimer) ∨ (∃ st, ofStation st) ∨
      (∃ u : UnitId, (c = .rechargeTimerExpiry m u ∧ came s.units[u].rechargeTimer) ∨
        (c = .pulseEnd m u ∧ came s.units[u].pulseEnd)) ∨
      (c = .flashDeadline m ∧ ∃ r ∈ s.waiting, reached r.deadline s.gantryTime = true))

/-- The state in which a command is taken, where the event before left no notice unhandled, the host's writes one
after the other (the model's own, log 1, log 4, log 13); and how times compare and subtract, across the wrap of the
count where it lies between them (log 4). What the updates of one track, pair, curtain, station, run and port change,
as the statements below name them; and what the lookups answer: the passage of an id, the sighting and the track of a
request (R48, R53), the track of a station, the step a run stands at, the earliest request of a station; where a
lookup finds nothing, the defaults are the model's (log 27). -/
def Obligations.TakenAtMoment : Prop :=
  (∀ (m : Moment) (s : State), s.undone = [] →
    taken m s = { s with
      gantryTime := if s.gantryTime.toNat ≤ m.now.toNat then m.now else s.gantryTime
      mem := Memory.writeCells s.mem m.hostWrites
      readErrors := m.readErrors
      writeErrors := m.writeErrors }) ∧
  (∀ (mem : Memory) (c : Host.Cell) (cells : List Host.Cell), Memory.writeCells mem [] = mem ∧
    Memory.writeCells mem (c :: cells) = Memory.writeCells (Memory.write mem c.1 c.2) cells ∧
    (Memory.wf mem = true → ∀ x, Memory.read (Memory.write mem c.1 c.2) x = if x = c.1 then c.2 else Memory.read mem x)) ∧
  (∀ (t : Time) (d : Nat), d < 2 ^ 47 →
    reached t (plusUs t d) = true ∧ elapsed t (plusUs t d) = d ∧
    (0 < d → reached (plusUs t d) t = false ∧ elapsed (plusUs t d) t = 0)) ∧
  (∀ t u : Time, t.toNat ≤ u.toNat → u.toNat - t.toNat < 2 ^ 47 →
    reached t u = true ∧ elapsed t u = u.toNat - t.toNat ∧ (reached u t = true → t = u)) ∧
  (∀ t u : Time, earlier t u = !reached u t ∧ expired none u = false ∧ expired (some t) u = reached t u) ∧
  (∀ (id : PassageId) (s : State),
    (∀ k, contextOf id s = some k → passageOf id s = s.passages[k]) ∧ (contextOf id s = none → passageOf id s = none)) ∧
  (∀ (r : Request) (s : State),
    (∀ p, passageOf r.pid s = some p → requestTrack r s = p.track ∧
      sightingOf r s = p.sightings.find? fun x => x.number == some r.sighting) ∧
    (passageOf r.pid s = none → requestTrack r s = stationTrack r.station s ∧ sightingOf r s = none)) ∧
  (∀ (st : StationId) (s : State),
    (∀ plan, s.stations[st].plan = some plan → stationTrack st s = plan.track) ∧
    (s.stations[st].plan = none → stationTrack st s = 0) ∧
    earliestOf st s = s.schedule.find? fun r => r.station == st) ∧
  (∀ (r : Run) (s : State),
    (∀ program, s.programs[r.program] = some program → currentStep r s = some program[r.index]) ∧
    (s.programs[r.program] = none → currentStep r s = none)) ∧
  (allTracks.map Fin.val = List.range 4 ∧ allStations.map Fin.val = List.range 8 ∧
    allUnits.map Fin.val = List.range 6 ∧ allContexts.map Fin.val = List.range 8) ∧
  (∀ (t : TrackId) (s : State),
    (∀ f, modTrack t f s = { s with tracks := s.tracks.set t (f s.tracks[t]) }) ∧
    (∀ f, modCurtain t f s = modTrack t (fun u => { u with curtain := f u.curtain }) s) ∧
    (∀ l, setQueue t .u l s = modTrack t (fun u => { u with uQueue := l }) s) ∧
    (∀ l, setQueue t .d l s = modTrack t (fun u => { u with dQueue := l }) s)) ∧
  (∀ (st : StationId) (s : State),
    (∀ f, modStation st f s = { s with stations := s.stations.set st (f s.stations[st]) }) ∧
    (∀ f, modRun st f s = modStation st (fun x => { x with run := x.run.map f }) s) ∧
    (∀ f, modPort st f s = { s with ports := s.ports.set st (f s.ports[st]) }))

/-- In FAILED the commands that reach a block change nothing. -/
def Obligations.FailedStopsBlocks : Prop :=
  ∀ (c : Instr) (s : State), stoppedInFailed c = true →
    let b := taken (momentOf c) s
    b.device = .failed → exec c s = .next b

/-- Every step keeps every block of a FAILED device quiet. -/
def Obligations.StepKeepsFailedQuiet : Prop :=
  ∀ s t : State, FailedQuiet s → step s = .next t → FailedQuiet t

/-- Every step keeps host memory in its canonical form: the form is the model's own, and the byte that an unlisted
address reads as is the one of log 5. -/
def Obligations.StepKeepsMemoryCanonical : Prop :=
  ∀ s t : State, Memory.wf s.mem = true → step s = .next t → Memory.wf t.mem = true

/-- Every step keeps these within their sizes: the schedule (48), the axle queues (4), the ready tile queue (8), the
withdraw list (16), the held records (8), the notice queue (64), the parked orders (4). -/
def Obligations.StepKeepsCapacities : Prop :=
  ∀ s t : State, withinCapacities s = true → step s = .next t → withinCapacities t = true

/-- The state after reset meets the three invariants. -/
def Obligations.ResetMeetsInvariants : Prop :=
  FailedQuiet State.reset ∧ Memory.wf State.reset.mem = true ∧ withinCapacities State.reset = true

/-- STOPPING ends when every context is FREE, no station holds a run, the ready tile queue is empty and no card is
current; the device enters READY and nothing else changes. -/
def Obligations.StoppingEnds : Prop :=
  ∀ s : State, s.device = .stopping →
    let t := settleDrain s
    t.device = .stopping →
    (((∀ k : ContextId, t.passages[k] = none) ∧ (∀ st : StationId, t.stations[st].run = none) ∧ t.mover.queue = [] ∧
        t.mover.current = none) → conclude s = { t with device := .ready }) ∧
    (¬((∀ k : ContextId, t.passages[k] = none) ∧ (∀ st : StationId, t.stations[st].run = none) ∧ t.mover.queue = [] ∧
        t.mover.current = none) → conclude s = t)

/-- The end of an event changes nothing outside STOPPING and FAILED when no DRAIN is parked, and drops every block's
work in FAILED, where its own tests enter FAILED too. A parked DRAIN is tested first, then the end of STOPPING (log
15), which R201 gives. A parked DRAIN is judged there: it fails with the address in the drain context, which is
emptied; it is done when its five conditions hold together; else it stays parked (R151, R189; log 15, log 16). In
FAILED every block drops its work (R2, R45, R67, R96, R116, R133, R154, R171, R197, R202): tracks CLOSED, contexts
FREE, stations OFFLINE, units OUT with fire line and supply off, the mover IDLE with nothing in hand (look pending and
pending head: log 20), no record held, no order executing or parked; plans, programs, the chain's cursor, withdraw
list and drain context, and the log's cursor stay, and by the model's choice the chain's condition and hold reason
(log 48). -/
def Obligations.EndOfEvent : Prop :=
  (∀ s : State, (calm s = true → conclude s = s) ∧ (s.device = .failed → conclude s = hush s) ∧
    (s.device ≠ .failed → conclude s = if (settle s).device = .failed then hush (settle s) else settle s)) ∧
  (∀ s : State,
    let ended := (∀ k : ContextId, s.passages[k] = none) ∧ (∀ st : StationId, s.stations[st].run = none) ∧
      s.mover.queue = [] ∧ s.mover.current = none
    settle s = settleStopping (settleDrain s) ∧
    (s.device = .stopping → ended → settleStopping s = { s with device := .ready }) ∧
    (s.device ≠ .stopping ∨ ¬ended → settleStopping s = s)) ∧
  (∀ (s : State) (slot : SlotId), s.engine.parked.filter (fun p => p.waits == .drain) = [⟨slot, .drain⟩] →
    let met := s.mover.queue = [] ∧ s.mover.current = none ∧
      (∀ st : StationId, ∀ r ∈ s.stations[st].run, ∀ e ∈ r.exposures, e.outcome ≠ .pending) ∧
      s.mover.condition ≠ .held ∧ s.writer.held = []
    (∀ a, s.mover.drainContext = some a →
      settleDrain s = writeFinish slot (.refused .failed (le 8 a.toNat))
        (unpark ⟨slot, .drain⟩ { s with mover := { s.mover with drainContext := none } })) ∧
    (s.mover.drainContext = none → met → settleDrain s = writeFinish slot (.ok []) (unpark ⟨slot, .drain⟩ s)) ∧
    (s.mover.drainContext = none → ¬met → settleDrain s = s)) ∧
  (∀ s : State,
    let t := hush s
    t = { s with
      tracks := t.tracks, stations := t.stations, units := t.units, ports := t.ports
      passages := Vector.replicate 8 none, schedule := [], dueTimer := none, waiting := []
      openExposures := Vector.replicate 8 none, lingering := []
      mover := { s.mover with
        queue := [], phase := .idle, current := none, marked := none, pendingHead := none, lookPending := false
        abandoned := [] }
      writer := { s.writer with held := [] }
      engine := { scan := none, executing := none, lookAgain := false, parked := [] }, undone := [] } ∧
    (∀ i : TrackId,
      let u := s.tracks[i]
      let quiet (f : WheelFilter) : WheelFilter := { f with state := .quiet, bounce := none }
      t.tracks[i] = u.drop ∧ u.drop =
        { plan := u.plan, state := .closed, settleTimer := none, ignoreTimer := none, uOuter := quiet u.uOuter
          uInner := quiet u.uInner, dInner := quiet u.dInner, dOuter := quiet u.dOuter, served := none, uQueue := []
          dQueue := []
          curtain := { detector := .clear, lit := 0, dark := 0, enter := none, leave := none, topBeam := 0
                       stuckTimer := none, silenceTimer := none, blind := false, darkRunStart := none } }) ∧
    (∀ st : StationId,
      t.stations[st] =
        { plan := s.stations[st].plan, state := .offline, restTimer := none, wakeTimer := none, run := none, marks := [] } ∧
      t.ports[st] = { s.ports[st] with awaited := [] }) ∧
    (∀ u : UnitId, t.units[u] = { s.units[u] with
      state := .out, rechargeTimer := none, firing := none, pulseEnd := none, fireLine := false, supply := false }))

/-! ## Resets (R203, R204) -/

/-- A card write in progress stops where it stands: how many of its bytes had landed is a free value (log 8), all of
them only where `whole` says so, at the entry into FAILED. The last byte of a card write is its owner byte, so a stop
short of all of them, as a reset makes it, leaves that byte unwritten. The bytes land in the order of the writes: of a
card being written the tile's bytes, the device fields, lowest offset first (log 56), the owner byte; of a card being
marked the status, the owner byte (R140, R141). The first n of them read as written, the last where one address is
written twice, and every other address reads as before; each write leaves as one output, up to the stop. Of what
lands, only host memory, at the addresses written, and the outputs change. -/
def Obligations.CardWriteStops : Prop :=
  (∀ (whole : Bool) (s : State),
    (phaseRuns s.mover = [] → stopCardWrite whole s = s) ∧
    (phaseRuns s.mover ≠ [] → ∃ n,
      (n < runsLength (phaseRuns s.mover) ∨ whole = true ∧ n = runsLength (phaseRuns s.mover)) ∧
      stopCardWrite whole s = landRuns (phaseRuns s.mover) n { s with freeCount := s.freeCount + 1 })) ∧
  (∀ m : TileMover,
    (∀ c, m.phase = .writing → m.current = some c → ∃ before, phaseRuns m = before ++ [(c.address, [0])]) ∧
    (∀ c, m.phase = .marking → m.marked = some c → ∃ before, phaseRuns m = before ++ [(c.address, [0])])) ∧
  (∀ m : TileMover,
    (∀ c, m.phase = .writing → m.current = some c →
      let kept := c.tile.bytes.take c.capacity
      phaseRuns m = [(c.buffer, kept),
        (offsetAddr c.address 2, [if c.capacity < c.tile.bytes.length then 2 else 1, byteOf c.tile.station.val]),
        (offsetAddr c.address 24, le 4 kept.length ++ le 2 c.tile.pid.toNat ++
          [byteOf c.tile.number, byteOf c.tile.sighting]), (c.address, [0])]) ∧
    (∀ c, m.phase = .marking → m.marked = some c →
      phaseRuns m = [(offsetAddr c.address 2, [3]), (c.address, [0])]) ∧
    (m.phase ≠ .writing → m.phase ≠ .marking → phaseRuns m = []) ∧
    ∀ runs, runsLength runs = (runs.map fun r => r.2.length).sum) ∧
  (∀ (before : List (Addr × List Byte)) (a : Addr) (n : Nat) (s : State), n < runsLength (before ++ [(a, [0])]) →
    landRuns (before ++ [(a, [0])]) n s = landRuns before n s) ∧
  (∀ (runs : List (Addr × List Byte)) (n : Nat) (s : State), Memory.wf s.mem = true →
    let t := landRuns runs n s
    let cells : List Host.Cell := runs.flatMap fun r =>
      (List.range r.2.length).map fun i => ((offsetAddr r.1 i).toNat, r.2.getD i 0)
    t = { s with mem := t.mem, outputs := t.outputs } ∧
    (∀ x, (∀ r ∈ runs, outside x r.1 r.2.length) → Memory.read t.mem x = Memory.read s.mem x) ∧
    (∀ i x v, i < n → cells[i]? = some (x, v) → (∀ j w, i < j → j < n → cells[j]? ≠ some (x, w)) →
      Memory.read t.mem x = v) ∧
    (∀ x, (∀ i v, i < n → cells[i]? ≠ some (x, v)) → Memory.read t.mem x = Memory.read s.mem x)) ∧
  (∀ (r : Addr × List Byte) (rest : List (Addr × List Byte)) (n : Nat) (s : State),
    landRuns [] n s = s ∧ landRuns [r] 0 s = s ∧
    landRuns (r :: rest) n s = landRuns rest (n - r.2.length) (landRuns [r] n s) ∧
    (0 < n → (landRuns [r] n s).outputs = s.outputs ++ [.hostWrite r.1 (r.2.take n)]))

/-- Power-on and link reset (R203): gantry time, base, staged half and enables 0, every block in its reset state,
DORMANT or, on a failed self check, FAILED with CAUSE.FAILED latched. A soft reset (R204) keeps gantry time, base and
staged half, takes the enables as written, makes a failed self check again, and writes the identity block where the
base is valid. Lines, host memory and outputs stay (log 19), but for what of a card write in progress had landed (log
8). The next state is given whole through `State.reset`, whose values the manual gives but for those of log 17 (DESIGN
CHOICE), which are the model's; whether the self check passes is an operand of the command (log 9). -/
def Obligations.Resets : Prop :=
  (∀ (m : Moment) (ok : Bool) (s : State),
    let b := stopCardWrite false (taken m s)
    let t : State := { State.reset with
      tracks := b.tracks.map TrackUnit.atReset
      device := if ok then .dormant else .failed
      failReason := if ok then .none else .selfCheck
      latches := { orders := false, dry := false, fault := false, failed := !ok }
      mem := b.mem, readErrors := b.readErrors, writeErrors := b.writeErrors, outputs := b.outputs
      freeCount := b.freeCount, pending := b.pending }
    exec (.powerOn m ok) s = .next t ∧ exec (.linkReset m ok) s = .next t) ∧
  (∀ (m : Moment) (e : BitVec 5) (ok : Bool) (s : State),
    let b := stopCardWrite false (setEnables e (taken m s))
    let t : State := { State.reset with
      gantryTime := b.gantryTime, tracks := b.tracks.map TrackUnit.atReset, base := b.base, stagedLow := b.stagedLow
      enables := e, mem := b.mem, readErrors := b.readErrors, writeErrors := b.writeErrors, outputs := b.outputs
      freeCount := b.freeCount, pending := b.pending }
    (b.device = .failed → b.failReason = .selfCheck → ok = false →
      exec (.controlSoftReset m e ok) s =
        .next (latchFailed { t with device := .failed, failReason := .selfCheck })) ∧
    (¬(b.device = .failed ∧ b.failReason = .selfCheck ∧ ok = false) →
      (b.base = 0 → exec (.controlSoftReset m e ok) s = .next t) ∧
      (b.base ≠ 0 → exec (.controlSoftReset m e ok) s = .next (writeIdentity t))))

/-- The identity block as written: 256 bytes that sum to 0, the integrity byte last, every other byte unchanged; and
its fields. The revision is the model's opaque constant (log 10). -/
def Obligations.IdentityBlock : Prop :=
  (∀ s : State, Memory.wf s.mem = true → writable s.base 256 s →
    let t := writeIdentity s
    t = { s with
      mem := t.mem
      outputs := s.outputs ++ [.hostWrite s.base identityBytes, .hostWrite (offsetAddr s.base 255) [integrityByte]] } ∧
    busRead s.base 256 t = identityBytes ++ [integrityByte] ∧
    (∀ x, outside x s.base 256 → Memory.read t.mem x = Memory.read s.mem x)) ∧
  (identityBytes.length = 255 ∧ (identityBytes ++ [integrityByte]).foldl (· + ·) 0 = 0 ∧
    identityBytes.take 15 = [0x40, 0x48, Config.revision, 0, 4, 8, 6, 48, 12, 0, 2, 16, 16, 32, 27] ∧
    ∀ i, 15 ≤ i → i < 255 → identityBytes[i]? = some 0)

/-! ## Registers -/

/-- A CONTROL write with action NONE or an undefined code (R176): the enables alone are written, and one message is
sent where the interrupt condition passes from not holding to holding (R212). Writes to IDENT, STATUS and NOTICE are
ignored (R173); the wrap of the count sets the gantry time to 0 (R205, log 29). -/
def Obligations.PlainRegisterWrites : Prop :=
  (∀ (m : Moment) (e : BitVec 5) (code : BitVec 3) (s : State),
    let b := taken m s
    let t := { b with enables := e }
    (irqCondition b = false → irqCondition t = true →
      exec (.controlNone m e code) s = .next { t with outputs := b.outputs ++ [.msi] }) ∧
    (irqCondition b = true ∨ irqCondition t = false → exec (.controlNone m e code) s = .next t)) ∧
  (∀ (m : Moment) (s : State),
    (∀ register value, exec (.registerWriteIgnored m register value) s = .next (taken m s)) ∧
    exec (.gantryTimeWrap m) s = .next { taken m s with gantryTime := 0 })

/-- START in READY enters WATCHING and changes nothing else; in any other device state it changes nothing. The enables
are written first. -/
def Obligations.ControlStart : Prop :=
  ∀ (m : Moment) (e : BitVec 5) (s : State),
    let b := setEnables e (taken m s)
    (b.device = .ready → exec (.controlStart m e) s = .next { b with device := .watching }) ∧
    (b.device ≠ .ready → exec (.controlStart m e) s = .next b)

/-- STOP in WATCHING: STOPPING, every track closed NOW, the test requests removed, the test runs aborted, in this
order (log 40); a closure NOW takes the track to CLOSED, finishes its parked order and ends its passages, in this
order (log 52; how each ends: TrackOrders). With nothing open it ends at once in READY with every track CLOSED.
Elsewhere it is ignored. -/
def Obligations.ControlStop : Prop :=
  (∀ (m : Moment) (e : BitVec 5) (s : State),
    let b := setEnables e (taken m s)
    (b.device = .watching →
      exec (.controlStop m e) s = .next (conclude (abortPassage 0 (removal 0 .abandoned
        (closeNow 3 (closeNow 2 (closeNow 1 (closeNow 0 { b with device := .stopping })))))))) ∧
    (b.device = .watching → (∀ k : ContextId, b.passages[k] = none) → (∀ st : StationId, b.stations[st].run = none) →
      b.schedule = [] → b.engine.parked = [] → b.mover.queue = [] → b.mover.current = none →
      exec (.controlStop m e) s = .next { b with tracks := b.tracks.map TrackUnit.drop, device := .ready }) ∧
    (b.device = .failed → exec (.controlStop m e) s = .next b) ∧
    (b.device ≠ .watching → b.device ≠ .failed → exec (.controlStop m e) s = .next (conclude b))) ∧
  (∀ (t : TrackId) (s : State),
    closeNow t s = endTrackPassages t (finishParked (.track t) (.ok [0]) (modTrack t TrackUnit.drop s)))

/-- A write of EXCHANGE BASE LOW stages bits 31 to 12 in DORMANT and READY. A write of EXCHANGE BASE HIGH is taken in
DORMANT and READY with no scan under way and no parked order: the base is the written half joined with the staged
half, the row cursor becomes 0, the notice queue is emptied, notice overflow cleared, and the identity block is
written where the base is valid. Else both are ignored (R171, R174, R175). -/
def Obligations.ExchangeBaseWrites : Prop :=
  (∀ (m : Moment) (value : Word) (s : State),
    let b := taken m s
    (b.device = .dormant ∨ b.device = .ready →
      exec (.exchangeBaseLowWrite m value) s = .next { b with stagedLow := value.extractLsb' 12 20 }) ∧
    (¬(b.device = .dormant ∨ b.device = .ready) → exec (.exchangeBaseLowWrite m value) s = .next b)) ∧
  (∀ (m : Moment) (value : Word) (s : State),
    let b := taken m s
    let open_ := (b.device = .dormant ∨ b.device = .ready) ∧ b.engine.scan = none ∧ b.engine.parked = []
    let base : Addr := value ++ b.stagedLow ++ (0 : BitVec 12)
    let t := { b with base := base, writer := { b.writer with rowCursor := 0, notices := [], overflow := false } }
    (open_ → base = 0 → exec (.exchangeBaseHighWrite m value) s = .next t) ∧
    (open_ → base ≠ 0 → writable base 256 b → exec (.exchangeBaseHighWrite m value) s = .next (writeIdentity t)) ∧
    (open_ → base ≠ 0 → ¬writable base 256 b →
      ∃ u, exec (.exchangeBaseHighWrite m value) s = .next u ∧ u.device = .failed ∧ u.failReason = .fatalCause) ∧
    (b.device ≠ .failed → ¬open_ → exec (.exchangeBaseHighWrite m value) s = .next (conclude b)))

/-- The CAUSE bits, the interrupt condition, the words the registers read as, and the codes in them (9.1, R211, R212).
A change after which the interrupt condition holds, where it did not hold before, sends one message; the latches of
CAUSE and the enables are set so (R176, R211, R212). -/
def Obligations.RegisterWords : Prop :=
  (∀ s : State,
    (causeBits s).getLsbD 0 = !s.writer.notices.isEmpty ∧ (causeBits s).getLsbD 1 = s.latches.orders ∧
    (causeBits s).getLsbD 2 = s.latches.dry ∧ (causeBits s).getLsbD 3 = s.latches.fault ∧
    (causeBits s).getLsbD 4 = s.latches.failed ∧
    (irqCondition s = true ↔ ∃ i, (causeBits s).getLsbD i = true ∧ s.enables.getLsbD i = true)) ∧
  (∀ s : State,
    identWord = 0x4840#16 ++ 0#8 ++ Config.revision ∧ baseHighWord s ++ baseLowWord s = s.base ∧
    controlWord s = 0#27 ++ s.enables ∧ causeWord s = 0#27 ++ causeBits s ∧
    (s.engine.parked.length ≤ 4 → s.writer.held.length ≤ 8 →
      (statusWord s).toNat = s.device.code + 16 * s.failReason.code + 256 * s.mover.condition.code +
        4096 * s.writer.overflow.toNat + 65536 * s.engine.parked.length + 1048576 * s.writer.held.length)) ∧
  (([.dormant, .ready, .watching, .stopping, .failed] : List DeviceState).map DeviceState.code = [0, 1, 2, 3, 4] ∧
    ([.none, .selfCheck, .doubleFault, .fatalCause] : List FailReason).map FailReason.code = [0, 1, 2, 3] ∧
    ([.ok, .dry, .held] : List ChainCondition).map ChainCondition.code = [0, 1, 2]) ∧
  (∀ (f : State → State) (s : State),
    (irqCondition s = false → irqCondition (f s) = true →
      withIrq f s = { f s with outputs := (f s).outputs ++ [.msi] }) ∧
    (irqCondition s = true ∨ irqCondition (f s) = false → withIrq f s = f s)) ∧
  (∀ s : State,
    latchOrders s = withIrq (fun s => { s with latches := { s.latches with orders := true } }) s ∧
    latchDry s = withIrq (fun s => { s with latches := { s.latches with dry := true } }) s ∧
    latchFault s = withIrq (fun s => { s with latches := { s.latches with fault := true } }) s ∧
    latchFailed s = withIrq (fun s => { s with latches := { s.latches with failed := true } }) s ∧
    ∀ e, setEnables e s = withIrq (fun s => { s with enables := e }) s)

/-- A write to CAUSE clears each latched bit written with 1 and leaves the others; one message is sent where the
interrupt condition still holds. -/
def Obligations.CauseWrite : Prop :=
  ∀ (m : Moment) (value : Word) (s : State),
    let b := taken m s
    let t := { b with latches := {
      orders := b.latches.orders && !value.getLsbD 1, dry := b.latches.dry && !value.getLsbD 2
      fault := b.latches.fault && !value.getLsbD 3, failed := b.latches.failed && !value.getLsbD 4 } }
    (irqCondition t = true → exec (.causeWrite m value) s = .next { t with outputs := b.outputs ++ [.msi] }) ∧
    (irqCondition t = false → exec (.causeWrite m value) s = .next t)

/-- A read of NOTICE, in every device state; a write to NOTICE is ignored. -/
def Obligations.NoticeRead : Prop :=
  ∀ (m : Moment) (s : State),
    let b := taken m s
    (b.writer.notices = [] →
      exec (.noticeRead m) s = .next { b with outputs := b.outputs ++ [.registerRead 65535] }) ∧
    (∀ (row : RowId) (rest : List RowId), b.writer.notices = row :: rest →
      exec (.noticeRead m) s = .next { b with
        outputs := b.outputs ++ [.registerRead (BitVec.ofNat 32 row.val)]
        writer := { b.writer with notices := rest, overflow := if rest = [] then false else b.writer.overflow } }) ∧
    (∀ value, exec (.registerWriteIgnored m .notice value) s = .next b)

/-- LOOK at the three blocks (R146, R164, R179). With the base 0 it reaches the tile mover alone: by phase, chain
condition and cursor. In general the tile mover, then the report writer take it, a parked DRAIN and STOPPING are
judged, the order engine takes it (log 14, log 15). With a valid base, an idle chain, nothing held and no slot POSTED
the scan ends where it began, and STOPPING ends where nothing is open. -/
def Obligations.LookAtMover : Prop :=
  ∀ (m : Moment) (e : BitVec 5) (s : State),
    let b := setEnables e (taken m s)
    (calm b = true → b.base = 0 → exec (.controlLook m e) s = .next (lookMover b)) ∧
    (b.device ≠ .failed →
    (b.mover.phase = .taking ∨ b.mover.phase = .following ∨ b.mover.phase = .probing →
      lookMover b = { b with mover := { b.mover with lookPending := true } }) ∧
    (b.mover.phase = .writing ∨ b.mover.phase = .marking → lookMover b = b) ∧
    (b.mover.phase = .idle → b.mover.condition = .ok → lookMover b = b) ∧
    (b.mover.phase = .idle → b.mover.condition = .dry → b.mover.cursor = .absent → lookMover b = b) ∧
    (∀ a, b.mover.phase = .idle → b.mover.condition = .dry → b.mover.cursor = .at a → lookMover b =
      { b with mover := { b.mover with phase := .probing }, outputs := b.outputs ++ [.hostRead a 1] }) ∧
    (∀ a, b.mover.phase = .idle → b.mover.condition = .dry → b.mover.cursor = .after a → lookMover b =
      { b with mover := { b.mover with phase := .following }, outputs := b.outputs ++ [.hostRead (a + 16) 8] }) ∧
    (∀ a, b.mover.phase = .idle → b.mover.condition = .held → b.mover.cursor = .after a → lookMover b = { b with
      mover := { b.mover with condition := .ok, hold := none, phase := .following }
      outputs := b.outputs ++ [.hostRead (a + 16) 8] }) ∧
    (∀ a, b.mover.phase = .idle → b.mover.condition = .held → b.mover.cursor = .at a → b.mover.queue = [] →
      lookMover b = { b with mover := { b.mover with condition := .ok, hold := none } }) ∧
    (∀ a, b.mover.phase = .idle → b.mover.condition = .held → b.mover.cursor = .at a → b.mover.queue ≠ [] →
      lookMover b = { b with
        mover := { b.mover with condition := .ok, hold := none, phase := .taking }
        outputs := b.outputs ++ [.hostRead a 32] })) ∧
    (let w := lookWriter (lookMover b)
     (b.device = .failed → exec (.controlLook m e) s = .next b) ∧
     (b.device ≠ .failed → w.device = .failed → exec (.controlLook m e) s = .next (conclude w)) ∧
     (b.device ≠ .failed → w.device ≠ .failed →
       exec (.controlLook m e) s = .next (conclude (lookEngine (settleStopping (settleDrain w)))))) ∧
    (b.base ≠ 0 → b.mover.phase = .idle → b.mover.condition = .ok → b.writer.held = [] → b.engine.scan = none →
      b.engine.executing = none → b.readErrors = [] → (∀ slot : SlotId, busRead (slotAddr slot b) 1 b ≠ [1]) →
      let scanned := { b with engine := { b.engine with scan := none, lookAgain := false } }
      let open_ := (∃ k : ContextId, b.passages[k] ≠ none) ∨ (∃ st : StationId, b.stations[st].run ≠ none) ∨
        b.mover.queue ≠ [] ∨ b.mover.current ≠ none
      (calm b = true → exec (.controlLook m e) s = .next scanned) ∧
      (b.device = .stopping → b.engine.parked = [] → open_ → exec (.controlLook m e) s = .next scanned) ∧
      (b.device = .stopping → b.engine.parked = [] → ¬open_ →
        exec (.controlLook m e) s = .next { scanned with device := .ready }))

/-- A LOOK at the order engine, a visit of one slot by its scan (R179, R180), and a LOOK at the report writer (R164).
No LOOK comes within a scan that waits on no read (log 6). A slot is read whole where its state byte reads POSTED; its
order is taken from the layout of 11.3. The slots are visited in order until the scan stops, at a read it waits on or
in FAILED; a scan that goes on after a read visits the slots behind, and at its end look-again brings a new scan from
slot 0 (R179); the engine holds a slot that is executing or parked (R177). After each record written a retry pass
raises the causes that it brings (R170) and goes on with the next held record; it stops at the first that finds a row
WRITTEN; the rows of a record are read in cursor order, cyclically (R158, R159, R160). Slot n stands at 0x400 + 64 n
of the exchange area, row n at 0x1000 + 128 n (11.1); addresses wrap at 64 bits (log 26); multi-byte fields are
little-endian (11.3); EXCHANGE_READ names the slot's offset alone (R180). -/
def Obligations.LookAtBoardAndLog : Prop :=
  (∀ s : State,
    (∀ slot : SlotId, slotAddr slot s = s.base + BitVec.ofNat 64 (0x400 + 64 * slot.val)) ∧
    (∀ row : RowId, rowAddr row s = s.base + BitVec.ofNat 64 (0x1000 + 128 * row.val)) ∧
    (∀ offset, exchangeRead offset s = raise
      { code := .exchangeRead, track := none, station := none, unit := none, pid := none
        detail := some (BitVec.ofNat 64 offset) } s) ∧
    ∀ (a : Addr) (n : Nat), offsetAddr a n = a + BitVec.ofNat 64 n ∧ (busRead a n s).length = n ∧
      ∀ i, i < n → (busRead a n s)[i]? = some (Memory.read s.mem (a + BitVec.ofNat 64 i).toNat)) ∧
  (∀ (bytes : List Byte) (pos n : Nat), leAt bytes pos 0 = 0 ∧
    leAt bytes pos (n + 1) = (bytes.getD pos 0).toNat + 256 * leAt bytes (pos + 1) n) ∧
  (∀ s : State, s.device ≠ .failed →
    (s.base = 0 → lookEngine s = s) ∧
    (s.base ≠ 0 → s.engine.scan ≠ none →
      lookEngine s = { s with engine := { s.engine with lookAgain := true } }) ∧
    (s.base ≠ 0 → s.engine.scan = none →
      lookEngine s = endScan (visitSlots allSlots { s with engine := { s.engine with scan := some 0, lookAgain := false } })) ∧
    (∀ slot : SlotId,
      let t := { s with engine := { s.engine with scan := some slot } }
      let a := slotAddr slot s
      (holdsSlot slot s = true → visitSlot slot s = t) ∧
      (holdsSlot slot s = false → a.toNat ∉ s.readErrors → busRead a 1 s ≠ [1] → visitSlot slot s = t) ∧
      (holdsSlot slot s = false → (∀ i, i < 64 → (offsetAddr a i).toNat ∉ s.readErrors) → busRead a 1 s = [1] →
        visitSlot slot s = takeOrder slot (slotOrder (busRead a 64 s)) t) ∧
      (holdsSlot slot s = false → a.toNat ∉ s.readErrors → busRead a 1 s = [1] →
        (∃ i, i < 64 ∧ (offsetAddr a i).toNat ∈ s.readErrors) →
        visitSlot slot s = exchangeRead (0x400 + 64 * slot.val) t) ∧
      (holdsSlot slot s = false → a.toNat ∈ s.readErrors → visitSlot slot s = exchangeRead (0x400 + 64 * slot.val) t))) ∧
  (∀ slot : List Byte,
    let byte (i : Nat) : Byte := slot.getD i 0
    let address : Addr := BitVec.ofNat 64 (leAt slot 8 8)
    (byte 1 = 1 → slotOrder slot = .loadPlan address) ∧
    (byte 1 = 2 → slotOrder slot = .loadPrograms (byte 5 ++ byte 4) address) ∧
    (byte 1 = 3 → slotOrder slot = .openTrack (byte 4)) ∧
    (byte 1 = 4 → slotOrder slot = .closeTrack (byte 4) (byte 5)) ∧
    (byte 1 = 5 → slotOrder slot = .giveChain address) ∧
    (byte 1 = 6 → slotOrder slot = .withdrawCards (byte 4) address) ∧
    (byte 1 = 7 → slotOrder slot = .drain) ∧
    (byte 1 = 8 → slotOrder slot = .abandonPassage (byte 5 ++ byte 4)) ∧
    (byte 1 = 9 → slotOrder slot = .testShot (byte 4) (byte 5) (byte 11 ++ byte 10 ++ byte 9 ++ byte 8)) ∧
    (byte 1 = 10 → slotOrder slot = .snapshot) ∧
    (byte 1 = 11 → slotOrder slot = .setRest (byte 4) (byte 5)) ∧
    (byte 1 = 0 ∨ 11 < (byte 1).toNat → slotOrder slot = .badKind)) ∧
  (∀ s : State, s.device ≠ .failed →
    (s.base = 0 ∨ s.writer.held = [] → lookWriter s = s) ∧
    (∀ (r : Record) (rest : List Record) (row : RowId), s.base ≠ 0 → s.writer.held = r :: rest →
      readRows s (rowsFrom s.writer.rowCursor r.bodies.length) = .blocked row → lookWriter s = s) ∧
    (∀ (r : Record) (rest : List Record) (row : RowId), s.base ≠ 0 → s.writer.held = r :: rest →
      readRows s (rowsFrom s.writer.rowCursor r.bodies.length) = .busError row →
      lookWriter s = raise { code := .rowWrite, track := none, station := none, unit := none, pid := none
                             detail := some (BitVec.ofNat 64 row.val) } s) ∧
    (∀ (r : Record) (rest : List Record), s.base ≠ 0 → s.writer.held = r :: rest →
      readRows s (rowsFrom s.writer.rowCursor r.bodies.length) = .free →
      let q := writeRecord r { s with writer := { s.writer with held := rest } }
      lookWriter s = lookWriter (q.2.2.foldl (fun s c => raise c s) q.1) ∧
      (rest = [] → q.2.2 = [] → lookWriter s = q.1))) ∧
  (∀ (cursor : RowId) (n i : Nat), i < n →
    (rowsFrom cursor n)[i]?.map Fin.val = some ((cursor.val + i) % 512) ∧ (rowsFrom cursor n).length = n) ∧
  (∀ (s : State) (rows : List RowId),
    let bad (row : RowId) : Prop := (rowAddr row s).toNat ∈ s.readErrors
    let free (row : RowId) : Prop := busRead (rowAddr row s) 1 s = [0]
    (∀ before row after, rows = before ++ row :: after → (∀ x ∈ before, ¬bad x) → bad row →
      readRows s rows = .busError row) ∧
    (∀ before row after, rows = before ++ row :: after → (∀ x ∈ rows, ¬bad x) → (∀ x ∈ before, free x) → ¬free row →
      readRows s rows = .blocked row) ∧
    ((∀ x ∈ rows, ¬bad x) → (∀ x ∈ rows, free x) → readRows s rows = .free)) ∧
  (∀ (slot : SlotId) (rest : List SlotId) (s : State),
    let stops (s : State) : Prop := s.device = .failed ∨ s.engine.executing ≠ none
    visitSlots [] s = s ∧ allSlots.map Fin.val = List.range 16 ∧
    (stops s → ∀ slots, visitSlots slots s = s) ∧
    (¬stops s → visitSlots (slot :: rest) s = visitSlots rest (visitSlot slot s)) ∧
    (stops s → endScan s = s) ∧
    (¬stops s → endScan s = { s with engine := { s.engine with scan := none } }) ∧
    (let t := visitSlots (allSlots.filter fun n => slot < n) s
     (stops t → continueScan slot s = t) ∧
     (¬stops t → t.engine.lookAgain = false → continueScan slot s = endScan t) ∧
     (¬stops t → t.engine.lookAgain = true → continueScan slot s = endScan (visitSlots allSlots
       { t with engine := { t.engine with scan := some 0, lookAgain := false } }))) ∧
    (holdsSlot slot s = true ↔
      (∃ r, s.engine.executing = some (slot, r)) ∨ ∃ p ∈ s.engine.parked, p.slot = slot))

/-! ## Track inputs (01) -/

/-- A wheel line's edges (R4). The line's level follows. On an asserting edge a QUIET filter of a track that takes its
inputs notes the edge time, starts the bounce timer and enters CONFIRMING; on a releasing edge CONFIRMING goes back to
QUIET without a pulse and ON starts the timer and enters RECOVERING; every other case leaves the filter as it is.
That the filter state alone decides, for an edge on a line that already stands at its level too, is the model's choice
(log 57). An update of one sensor's filter leaves the track's other three as they are. -/
def Obligations.WheelEdges : Prop :=
  (∀ (t : TrackId) (f : WheelFilter → WheelFilter) (s : State),
    modFilter t .uOuter f s = modTrack t (fun u => { u with uOuter := f u.uOuter }) s ∧
    modFilter t .uInner f s = modTrack t (fun u => { u with uInner := f u.uInner }) s ∧
    modFilter t .dInner f s = modTrack t (fun u => { u with dInner := f u.dInner }) s ∧
    modFilter t .dOuter f s = modTrack t (fun u => { u with dOuter := f u.dOuter }) s) ∧
  (∀ u : TrackUnit, u.filter .uOuter = u.uOuter ∧ u.filter .uInner = u.uInner ∧ u.filter .dInner = u.dInner ∧
    u.filter .dOuter = u.dOuter) ∧
  (∀ (m : Moment) (t : TrackId) (w : Sensor) (s : State),
    let b := taken m s
    let u := b.tracks[t]
    let listens := u.state = .watching ∨ u.state = .ignoring ∨ u.state = .closing
    (listens → (u.filter w).state = .quiet →
      exec (.assertingEdge m t w) s = .next (modFilter t w (fun _ =>
        { state := .confirming, asserted := true, edgeTime := b.gantryTime
          bounce := some (plusUs b.gantryTime u.plan.bounce) }) b)) ∧
    (¬listens ∨ (u.filter w).state ≠ .quiet →
      exec (.assertingEdge m t w) s = .next (modFilter t w (fun f => { f with asserted := true }) b))) ∧
  (∀ (m : Moment) (t : TrackId) (w : Sensor) (s : State),
    let b := taken m s
    let u := b.tracks[t]
    let listens := u.state = .watching ∨ u.state = .ignoring ∨ u.state = .closing
    (listens → (u.filter w).state = .confirming →
      exec (.releasingEdge m t w) s =
        .next (modFilter t w (fun f => { f with asserted := false, state := .quiet, bounce := none }) b)) ∧
    (listens → (u.filter w).state = .on →
      exec (.releasingEdge m t w) s = .next (modFilter t w (fun f =>
        { f with asserted := false, state := .recovering, bounce := some (plusUs b.gantryTime u.plan.bounce) }) b)) ∧
    (¬listens ∨ (u.filter w).state = .quiet ∨ (u.filter w).state = .recovering →
      exec (.releasingEdge m t w) s = .next (modFilter t w (fun f => { f with asserted := false }) b)))

/-- The bounce timer of a filter expires: RECOVERING goes to ON or QUIET by the line, CONFIRMING enters ON and its
pulse, stamped with the noted edge time, is accepted (R4). An expiry that no timer stands behind changes nothing (log
3). -/
def Obligations.BounceExpiry : Prop :=
  ∀ (m : Moment) (t : TrackId) (w : Sensor) (s : State),
    let b := taken m s
    let f := b.tracks[t].filter w
    let c := fun (n : FilterState) => modFilter t w (fun f => { f with state := n, bounce := none }) b
    b.device ≠ .failed →
    (expired f.bounce b.gantryTime = true → f.state = .recovering →
      exec (.bounceTimerExpiry m t w) s = .next (conclude (c (if f.asserted then .on else .quiet)))) ∧
    (expired f.bounce b.gantryTime = true → f.state = .confirming →
      exec (.bounceTimerExpiry m t w) s = .next (conclude (acceptPulse t w f.edgeTime (c .on)))) ∧
    (expired f.bounce b.gantryTime = false → exec (.bounceTimerExpiry m t w) s = .next (conclude b))

/-- The id taken at an opening is the next passage id, or the first id after it that no context holds (R22). A wake
notice goes to every station whose plan entry names the track (R24), in station order (log 44), and does there what
R73 gives. A pulse on a track that is IGNORING restarts the ignore timer and is discarded; one on a CLOSING track
without a served passage is discarded; an inner pulse on a WATCHING track without one raises WHEEL_UNPAIRED without a
passage id; an outer one opens a passage or takes the track to IGNORING with PASSAGE_REFUSED (R3, R6, R23, R24). The
opening pulse enters the approach pair's queue as a first-sensor pulse (R6, R8): it is appended where the queue holds
fewer than 4 entries, else AXLE_OVERRUN names the track and the served passage. -/
def Obligations.UnservedPulse : Prop :=
  (∀ (t : TrackId) (w : Sensor) (time : Time) (s : State),
    let u := s.tracks[t]
    let held := allContexts.filter fun k => s.passages[k].any fun p => p.track == t
    let refused := modTrack t (fun u => { u with
      state := .ignoring, ignoreTimer := some (plusUs s.gantryTime (u.plan.silenceS * 1000000)) }) s
    (u.state = .ignoring → acceptPulse t w time s = refused) ∧
    (u.state = .closing → u.served = none → acceptPulse t w time s = s) ∧
    (u.state = .watching → u.served = none → w = .uInner ∨ w = .dInner →
      acceptPulse t w time s = raise (trackCause .wheelUnpaired t none none) s) ∧
    (u.state = .watching → u.served = none → w = .uOuter ∨ w = .dOuter →
      ((∀ k : ContextId, s.passages[k] ≠ none) ∨ 2 ≤ held.length →
        acceptPulse t w time s = raise (trackCause .passageRefused t none none) refused) ∧
      (∀ (k : ContextId) (n : Nat), s.passages[k] = none → (∀ j : ContextId, j < k → s.passages[j] ≠ none) →
        held.length < 2 →
        let next (id : PassageId) : PassageId := if id = 65535 then 1 else id + 1
        let taken (id : PassageId) : Prop := ∃ j : ContextId, ∃ p, s.passages[j] = some p ∧ p.id = id
        let id := Nat.repeat next n s.nextPassageId
        n ≤ 8 → (∀ i, i < n → taken (Nat.repeat next i s.nextPassageId)) → ¬taken id →
        let dir := if w = .uOuter then Direction.up else .down
        let opened : Passage :=
          { id := id, track := t, dir := dir, state := .measuring, openTime := time, lastPulse := time
            estimate := none, minSpeed := none, maxSpeed := none, axles := 0, sightings := [], overflow := 0
            roofItems := 0, unpaired := 0, implausible := 0, outstanding := 0
            tail := some { kind := .silence, expiry := plusUs time (u.plan.silenceS * 1000000) }, close := none }
        acceptPulse t w time s = firstPulse t (if w = .uOuter then .u else .d) time
          (modTrack t (fun u => { u with served := some { id := id, dir := dir } })
            (wakeTrack t { s with passages := s.passages.set k (some opened), nextPassageId := next id }))))) ∧
  (∀ (t : TrackId) (s : State),
    wakeTrack t s = ([0, 1, 2, 3, 4, 5, 6, 7] : List StationId).foldl (fun s st =>
      if s.stations[st].plan.map StationPlan.track = some t then wakeNotice st s else s) s) ∧
  (∀ (st : StationId) (s : State),
    let x := s.stations[st]
    (x.state = .resting → wakeNotice st s = stationWakes st { s with
      stations := s.stations.set st { x with
        state := .waking, restTimer := none
        wakeTimer := some (plusUs s.gantryTime ((match x.plan with | some p => p.wakeMs | none => 0) * 1000)) }
      outputs := s.outputs ++ [.wake st] }) ∧
    (x.state = .idle → wakeNotice st s = { s with stations := s.stations.set st { x with
      restTimer := if x.restTimer = none then none else match x.plan with
        | none => none
        | some p => if p.restS = 0 then none else some (plusUs s.gantryTime (p.restS * 1000000)) } }) ∧
    (x.state ≠ .resting → x.state ≠ .idle → wakeNotice st s = s)) ∧
  (∀ (id : PassageId) (k : ContextId) (s : State),
    contextOf id s = some k ↔ (∃ p, s.passages[k] = some p ∧ p.id = id) ∧
      ∀ j : ContextId, j < k → ∀ p ∈ s.passages[j], p.id ≠ id) ∧
  (∀ (t : TrackId) (p : Pair) (time : Time) (s : State),
    let u := s.tracks[t]
    let queue := match p with | .u => u.uQueue | .d => u.dQueue
    (queue.length < 4 → firstPulse t p time s = setQueue t p (queue ++ [time]) s) ∧
    (4 ≤ queue.length → firstPulse t p time s = raise
      { code := .axleOverrun, track := some t, station := none, unit := none, pid := u.served.map Served.id
        detail := none } s))

/-- A pulse of the served passage: the pulse notice, then the queue of its pair. A first-sensor pulse is appended, or
meets a full queue with AXLE_OVERRUN; a second-sensor pulse takes the oldest entry, or is unpaired (R7, R8, R9). An
interval shorter than the shortest interval, or 0, is implausible; any other is a speed measurement (R11). What the
pulse notice and the measurement do to the passage: last pulse time, axle count, estimate, minimum, maximum, the tail
timer restarted from the last pulse time with the length and kind of R35, and, at the first measurement, the UNTIMED
entries classified in order and planned (R25, R27, R28, R30). Times compare and subtract across the wrap of the count
(log 4). The pair of each sensor, and which sensors are the first of their pair in each direction (R5); the causes of
the unit name the track, and no station or unit (R19). -/
def Obligations.ServedPulse : Prop :=
  (pairOf .uOuter = .u ∧ pairOf .uInner = .u ∧ pairOf .dInner = .d ∧ pairOf .dOuter = .d ∧
    (∀ u : TrackUnit, u.queue .u = u.uQueue ∧ u.queue .d = u.dQueue) ∧
    isFirst .up .uOuter = true ∧ isFirst .up .uInner = false ∧ isFirst .up .dInner = true ∧
    isFirst .up .dOuter = false ∧ isFirst .down .uInner = true ∧ isFirst .down .uOuter = false ∧
    isFirst .down .dOuter = true ∧ isFirst .down .dInner = false) ∧
  (∀ (code : CauseCode) (t : TrackId) (pid : Option PassageId) (detail : Option Nat),
    trackCause code t pid detail =
      { code := code, track := some t, station := none, unit := none, pid := pid
        detail := detail.map (BitVec.ofNat 64) }) ∧
  (∀ (t : TrackId) (w : Sensor) (v : Served) (time : Time) (s : State),
    s.tracks[t].state = .watching ∨ s.tracks[t].state = .closing → s.tracks[t].served = some v →
    let b := pulseNotice v.id w time s
    let q := b.tracks[t].queue (pairOf w)
    (isFirst v.dir w = true → q.length < 4 →
      acceptPulse t w time s = setQueue t (pairOf w) (q ++ [time]) b) ∧
    (isFirst v.dir w = true → 4 ≤ q.length →
      acceptPulse t w time s = raise (trackCause .axleOverrun t (some v.id) none) b) ∧
    (isFirst v.dir w = false → q = [] →
      acceptPulse t w time s = unpairedNotice v.id (raise (trackCause .wheelUnpaired t (some v.id) none) b)) ∧
    (∀ first rest, isFirst v.dir w = false → q = first :: rest →
      acceptPulse t w time s =
        testInterval t (pairOf w) v.id (elapsed first time) (setQueue t (pairOf w) rest b))) ∧
  (∀ (t : TrackId) (p : Pair) (id : PassageId) (interval : Nat) (s : State),
    let mm := match p with | .u => s.tracks[t].plan.uSpacing | .d => s.tracks[t].plan.dSpacing
    (interval = 0 ∨ interval < mm * 1000000 / 111111 →
      testInterval t p id interval s =
        implausibleNotice id (raise (trackCause .speedImplausible t (some id) (some interval)) s)) ∧
    (0 < interval → mm * 1000000 / 111111 ≤ interval →
      testInterval t p id interval s = measurement id (min 111111 (mm * 1000000 / interval)) s)) ∧
  (∀ (id : PassageId) (s : State),
    (contextOf id s = none →
      (∀ w time, pulseNotice id w time s = s) ∧ ∀ speed, measurement id speed s = s) ∧
    (∀ (k : ContextId) (p : Passage), contextOf id s = some k → s.passages[k] = some p → p.state = .finishing →
      (∀ w time, pulseNotice id w time s = s) ∧ ∀ speed, measurement id speed s = s) ∧
    (∀ (k : ContextId) (p : Passage), contextOf id s = some k → s.passages[k] = some p → p.state ≠ .finishing →
      let plan := s.tracks[p.track].plan
      let silence := plan.silenceS * 1000000
      let tail (speed : Option Nat) (last : Time) : TailTimer := match speed with
        | none => { kind := .silence, expiry := plusUs last silence }
        | some v =>
          if plan.tail * 1000000 / v < silence then { kind := .tail, expiry := plusUs last (plan.tail * 1000000 / v) }
          else { kind := .silence, expiry := plusUs last silence }
      let set (p : Passage) : State := { s with passages := s.passages.set k (some p) }
      (∀ w time,
        let last := if earlier p.lastPulse time then time else p.lastPulse
        let axle := (p.dir = .up ∧ w = .uInner) ∨ (p.dir = .down ∧ w = .dInner)
        pulseNotice id w time s = set { p with
          lastPulse := last, axles := if axle then min (p.axles + 1) 65535 else p.axles
          tail := some (tail (if p.state = .running then p.estimate else none) last) }) ∧
      (∀ speed,
        let measured : Passage := { p with
          state := .running, estimate := some speed, minSpeed := some (min (p.minSpeed.getD speed) speed)
          maxSpeed := some (max (p.maxSpeed.getD speed) speed), tail := some (tail (some speed) p.lastPulse) }
        let q := classify speed plan s 1 p.sightings
        (p.state = .running → measurement id speed s = revise k speed (set measured)) ∧
        (p.state = .measuring → measurement id speed s =
          (q.1.filterMap Sighting.number).foldl (fun s n => planSighting k n s) (revise k speed (set { measured with
            sightings := q.1, roofItems := min (p.roofItems + q.2) 65535 })))))) ∧
  (∀ (speed : Nat) (plan : TrackPlan) (s : State) (n : Nat),
    classify speed plan s n [] = ([], 0) ∧
    (∀ (x : Sighting) (rest : List Sighting),
      let mm := speed * elapsed x.enter x.leave / 1000000
      let sighting := { x with
        number := some n, headClass := some (if plan.contact ≤ x.topBeam then .raised else .lowered)
        speed := some speed, state := .planned, openRequests := 0 }
      (s.headMin ≤ mm ∧ mm ≤ s.headMax → classify speed plan s n (x :: rest) =
        (sighting :: (classify speed plan s (n + 1) rest).1, (classify speed plan s (n + 1) rest).2)) ∧
      (¬(s.headMin ≤ mm ∧ mm ≤ s.headMax) → classify speed plan s n (x :: rest) =
        ((classify speed plan s n rest).1, (classify speed plan s n rest).2 + 1))))

/-- A track's timers. The settle timer takes it to WATCHING with everything R1 names; the ignore timer back to
WATCHING with both queues empty and no served passage (R3); the entry at the head of a pair's queue expires at its
pulse time plus the pair's window: it is removed, WHEEL_UNPAIRED is raised, and the served passage takes an unpaired
notice (R8, R10). An expiry whose timer does not run or has not come changes nothing, and one taken late has its
effect (log 3). -/
def Obligations.TrackTimers : Prop :=
  (∀ (m : Moment) (t : TrackId) (s : State),
    let b := taken m s
    b.device ≠ .failed →
    (b.tracks[t].state = .settling → expired b.tracks[t].settleTimer b.gantryTime = true →
      exec (.settleTimerExpiry m t) s = .next (modTrack t (fun u =>
        let quiet := fun (f : WheelFilter) => { f with state := .quiet, bounce := none }
        { plan := u.plan, state := .watching, settleTimer := none, ignoreTimer := none, uOuter := quiet u.uOuter
          uInner := quiet u.uInner, dInner := quiet u.dInner, dOuter := quiet u.dOuter, served := none, uQueue := []
          dQueue := []
          curtain := { Curtain.reset with silenceTimer := some (plusUs b.gantryTime 10000) } }) b)) ∧
    (b.tracks[t].state ≠ .settling ∨ expired b.tracks[t].settleTimer b.gantryTime = false →
      exec (.settleTimerExpiry m t) s = .next b)) ∧
  (∀ (m : Moment) (t : TrackId) (s : State),
    let b := taken m s
    b.device ≠ .failed →
    (b.tracks[t].state = .ignoring → expired b.tracks[t].ignoreTimer b.gantryTime = true →
      exec (.ignoreTimerExpiry m t) s = .next (modTrack t (fun u =>
        { u with state := .watching, ignoreTimer := none, served := none, uQueue := [], dQueue := [] }) b)) ∧
    (b.tracks[t].state ≠ .ignoring ∨ expired b.tracks[t].ignoreTimer b.gantryTime = false →
      exec (.ignoreTimerExpiry m t) s = .next b)) ∧
  (∀ (m : Moment) (t : TrackId) (p : Pair) (s : State),
    let b := taken m s
    let mm := match p with | .u => b.tracks[t].plan.uSpacing | .d => b.tracks[t].plan.dSpacing
    b.device ≠ .failed →
    (∀ first rest v, b.tracks[t].queue p = first :: rest → b.tracks[t].served = some v →
      reached (plusUs first (mm * 1000000 / 1389)) b.gantryTime = true →
      exec (.axleEntryExpiry m t p) s = .next (conclude (unpairedNotice v.id
        (raise (trackCause .wheelUnpaired t (some v.id) none) (setQueue t p rest b))))) ∧
    (∀ first rest, b.tracks[t].queue p = first :: rest →
      reached (plusUs first (mm * 1000000 / 1389)) b.gantryTime = false →
      exec (.axleEntryExpiry m t p) s = .next (conclude b)) ∧
    (b.tracks[t].queue p = [] → exec (.axleEntryExpiry m t p) s = .next (conclude b)))

/-- A scan message (R13): not taken in CLOSED and SETTLING; else it restarts the silence timer and goes to the
detector, or, while the track is blind, to the watch. -/
def Obligations.ScanMessage : Prop :=
  ∀ (m : Moment) (t : TrackId) (beams : BitVec 24) (s : State),
    let b := taken m s
    let u := b.tracks[t]
    let timed := modCurtain t (fun c => { c with silenceTimer := some (plusUs b.gantryTime 10000) }) b
    let lit := (List.range 24).filter fun n => decide (u.plan.roofLine < n) && beams.getLsbD n
    b.device ≠ .failed →
    (u.state = .closed ∨ u.state = .settling → exec (.scanMessage m t beams) s = .next (conclude b)) ∧
    (u.state ≠ .closed → u.state ≠ .settling → u.curtain.blind = false →
      exec (.scanMessage m t beams) s = .next (conclude (detectScan t lit timed))) ∧
    (u.state ≠ .closed → u.state ≠ .settling → u.curtain.blind = true →
      exec (.scanMessage m t beams) s =
        .next (conclude (modCurtain t (Curtain.watchScan b.gantryTime (!lit.isEmpty)) timed)))

/-- The object detector (R14, R15), and what an object report does (R29 to R32): nothing without a MEASURING or
RUNNING passage of the track; an UNTIMED entry in MEASURING; in RUNNING a roof item or a sighting, which is planned;
SIGHTING_OVERFLOW where the list holds 12 entries. -/
def Obligations.ObjectDetector : Prop :=
  (∀ (t : TrackId) (lit : List Nat) (s : State),
    let c := s.tracks[t].curtain
    let plan := s.tracks[t].plan
    let now := s.gantryTime
    let top := lit.getLastD 0
    let set := fun (c : Curtain) => modCurtain t (fun _ => c) s
    (c.detector = .clear → lit = [] → detectScan t lit s = set { c with lit := 0, enter := none }) ∧
    (c.detector = .clear → lit ≠ [] → c.lit = 0 → 1 < plan.settleScans →
      detectScan t lit s = set { c with enter := some now, topBeam := top, lit := 1 }) ∧
    (c.detector = .clear → lit ≠ [] → c.lit = 0 → plan.settleScans ≤ 1 →
      detectScan t lit s = set { c with
        enter := some now, topBeam := top, lit := 1, detector := .object, dark := 0
        stuckTimer := some (plusUs now (plan.stuckS * 1000000)) }) ∧
    (c.detector = .clear → lit ≠ [] → c.lit ≠ 0 → c.lit + 1 < plan.settleScans →
      detectScan t lit s = set { c with lit := c.lit + 1, topBeam := max c.topBeam top }) ∧
    (∀ e, c.detector = .clear → lit ≠ [] → c.lit ≠ 0 → plan.settleScans ≤ c.lit + 1 → c.enter = some e →
      detectScan t lit s = set { c with
        lit := c.lit + 1, topBeam := max c.topBeam top, detector := .object, dark := 0
        stuckTimer := some (plusUs e (plan.stuckS * 1000000)) }) ∧
    (c.detector = .object → lit ≠ [] →
      detectScan t lit s = set { c with dark := 0, leave := none, topBeam := max c.topBeam top }) ∧
    (c.detector = .object → lit = [] → c.dark = 0 → 1 < plan.settleScans →
      detectScan t lit s = set { c with leave := some now, dark := 1 }) ∧
    (c.detector = .object → lit = [] → c.dark ≠ 0 → c.dark + 1 < plan.settleScans →
      detectScan t lit s = set { c with dark := c.dark + 1 }) ∧
    (∀ e, c.detector = .object → lit = [] → c.dark = 0 → plan.settleScans ≤ 1 → c.enter = some e →
      detectScan t lit s = objectReport t e now c.topBeam (set { c with
        detector := .clear, lit := 0, dark := 0, enter := none, leave := none, stuckTimer := none })) ∧
    (∀ e l, c.detector = .object → lit = [] → c.dark ≠ 0 → plan.settleScans ≤ c.dark + 1 → c.enter = some e →
      c.leave = some l →
      detectScan t lit s = objectReport t e l c.topBeam (set { c with
        detector := .clear, lit := 0, dark := 0, enter := none, leave := none, stuckTimer := none }))) ∧
  (∀ (t : TrackId) (enter leave : Time) (top : Nat) (s : State),
    let takes (k : ContextId) (p : Passage) : Prop := s.passages[k] = some p ∧ p.track = t ∧ p.state ≠ .finishing
    ((∀ k p, ¬takes k p) → objectReport t enter leave top s = s) ∧
    (∀ k p, takes k p → (∀ j q, j < k → ¬takes j q) →
      let set (p : Passage) : State := { s with passages := s.passages.set k (some p) }
      let count := min (p.overflow + 1) 65535
      let overflow := raise
        { code := .sightingOverflow, track := some t, station := none, unit := none, pid := some p.id
          detail := some (BitVec.ofNat 64 count) } (set { p with overflow := count })
      (p.state = .measuring → p.sightings.length < 12 →
        objectReport t enter leave top s = set { p with sightings := p.sightings ++ [
          { number := none, enter := enter, leave := leave, topBeam := top, headClass := none, speed := none
            state := .untimed, openRequests := 0 }] }) ∧
      (p.state = .measuring → 12 ≤ p.sightings.length → objectReport t enter leave top s = overflow) ∧
      (∀ speed, p.state = .running → p.estimate = some speed →
        let mm := speed * elapsed enter leave / 1000000
        let head := s.headMin ≤ mm ∧ mm ≤ s.headMax
        let number := (p.sightings.filter fun x => x.number.isSome).length + 1
        (¬head → objectReport t enter leave top s = set { p with roofItems := min (p.roofItems + 1) 65535 }) ∧
        (head → 12 ≤ p.sightings.length → objectReport t enter leave top s = overflow) ∧
        (head → p.sightings.length < 12 →
          objectReport t enter leave top s = planSighting k number (set { p with sightings := p.sightings ++ [
            { number := some number, enter := enter, leave := leave, topBeam := top
              headClass := some (if s.tracks[t].plan.contact ≤ top then .raised else .lowered), speed := some speed
              state := .planned, openRequests := 0 }] })))))

/-- The blind-clearing watch (R18). The stuck timer in OBJECT and the silence timer with the flag clear set the blind
flag, discard the object and raise CURTAIN_BLIND; the silence timer of a blind track ends its dark run (R16, R17). An
expiry whose timer does not run or has not come changes nothing (log 3). -/
def Obligations.BlindTrack : Prop :=
  (∀ (now : Time) (c : Curtain),
    c.watchScan now true = { c with darkRunStart := none } ∧
    (c.darkRunStart = none → c.watchScan now false = { c with darkRunStart := some now }) ∧
    (∀ start, c.darkRunStart = some start → elapsed start now < 1000000 → reached start now = true →
      c.watchScan now false = c) ∧
    (∀ start, c.darkRunStart = some start → 1000000 ≤ elapsed start now →
      c.watchScan now false = { c with
        blind := false, detector := .clear, lit := 0, dark := 0, enter := none, leave := none, stuckTimer := none })) ∧
  (∀ (m : Moment) (t : TrackId) (s : State),
    let b := taken m s
    let c := b.tracks[t].curtain
    let cause := trackCause .curtainBlind t (b.tracks[t].served.map Served.id) none
    let blinded := fun (c : Curtain) => { c with
      detector := .clear, lit := 0, dark := 0, enter := none, leave := none, stuckTimer := none, blind := true
      darkRunStart := none }
    b.device ≠ .failed →
    (c.detector = .object → expired c.stuckTimer b.gantryTime = true →
      exec (.stuckTimerExpiry m t) s = .next (conclude (raise cause (modCurtain t blinded b)))) ∧
    (c.detector ≠ .object ∨ expired c.stuckTimer b.gantryTime = false →
      exec (.stuckTimerExpiry m t) s = .next (conclude b)) ∧
    (expired c.silenceTimer b.gantryTime = true → c.blind = false →
      exec (.curtainSilenceExpiry m t) s =
        .next (conclude (raise cause (modCurtain t (fun c => { blinded c with silenceTimer := none }) b)))) ∧
    (expired c.silenceTimer b.gantryTime = true → c.blind = true →
      exec (.curtainSilenceExpiry m t) s =
        .next (conclude (modCurtain t (fun c => { c with silenceTimer := none, darkRunStart := none }) b))) ∧
    (expired c.silenceTimer b.gantryTime = false → exec (.curtainSilenceExpiry m t) s = .next (conclude b)))

/-! ## Passages (02) and the schedule (03) -/

/-- The tail timer of a passage expires (R36, R37): FINISHING with CLEARED or STALLED, the tail stopped, the served
passage cleared, then the notices of the close reason (R38); the passage completes where nothing is outstanding: its
record is handed over with the fields of R43, its marks discarded, its context FREE (R42). A CLOSING track without
another passage then closes (R2). An expiry whose timer does not run or has not come changes nothing (log 3). -/
def Obligations.PassageEnds : Prop :=
  (∀ (m : Moment) (k : ContextId) (s : State),
    let b := taken m s
    let ended (p : Passage) (reason : CloseReason) : Passage :=
      { p with state := .finishing, close := some reason, tail := none }
    b.device ≠ .failed →
    (∀ (p : Passage) (expiry : Time), b.passages[k] = some p → p.tail = some ⟨.tail, expiry⟩ →
      reached expiry b.gantryTime = true →
      exec (.tailTimerExpiry m k) s = .next (conclude (completeIfDone p.id (clearServed p.track p.id
        { b with passages := b.passages.set k (some (ended p .cleared)) })))) ∧
    (∀ (p : Passage) (expiry : Time), b.passages[k] = some p → p.tail = some ⟨.silence, expiry⟩ →
      reached expiry b.gantryTime = true →
      exec (.tailTimerExpiry m k) s = .next (conclude (completeIfDone p.id (removal p.id .stalled (raise
        { code := .passageStalled, track := some p.track, station := none, unit := none, pid := some p.id
          detail := none }
        (clearServed p.track p.id { b with passages := b.passages.set k (some (ended p .stalled)) })))))) ∧
    (∀ (p : Passage) (tail : TailTimer), b.passages[k] = some p → p.tail = some tail →
      reached tail.expiry b.gantryTime = false → exec (.tailTimerExpiry m k) s = .next (conclude b)) ∧
    (b.passages[k].bind Passage.tail = none → exec (.tailTimerExpiry m k) s = .next (conclude b))) ∧
  (∀ (k : ContextId) (p : Passage) (s : State), s.passages[k] = some p →
    (∀ j : ContextId, j < k → ∀ q ∈ s.passages[j], q.id ≠ p.id) →
    (p.state = .finishing → p.outstanding = 0 →
      let t := (handRecord (.passage (passageRecordOf p)) s).1
      t.device ≠ .failed →
      completeIfDone p.id s = contextFreed p.track { t with
        passages := t.passages.set k none
        stations := t.stations.map fun x => { x with marks := x.marks.filter fun n => n.pid != p.id } }) ∧
    (p.state ≠ .finishing ∨ p.outstanding ≠ 0 → completeIfDone p.id s = s)) ∧
  (∀ (t : TrackId) (s : State),
    let open_ := ∃ k : ContextId, ∃ p, s.passages[k] = some p ∧ p.track = t
    (s.tracks[t].state = .closing → ¬open_ →
      contextFreed t s = finishParked (.track t) (.ok [1]) (modTrack t TrackUnit.drop s)) ∧
    (s.tracks[t].state ≠ .closing ∨ open_ → contextFreed t s = s)) ∧
  (∀ (t : TrackId) (id : PassageId) (s : State),
    let serves := ∃ v, s.tracks[t].served = some v ∧ v.id = id
    (serves → clearServed t id s = modTrack t (fun u => { u with served := none, uQueue := [], dQueue := [] }) s) ∧
    (¬serves → clearServed t id s = s)) ∧
  (∀ p : Passage, passageRecordOf p =
    { id := p.id, track := p.track, dir := p.dir, openTime := p.openTime, lastPulse := p.lastPulse, axles := p.axles
      minSpeed := p.minSpeed, maxSpeed := p.maxSpeed
      sightings := (p.sightings.filter fun x => x.state != .untimed).length
      untimed := (p.sightings.filter fun x => x.state == .untimed).length, overflow := p.overflow
      roofItems := p.roofItems, unpaired := p.unpaired, implausible := p.implausible, close := p.close })

/-- An accounting notice (R34): the sighting's open requests and the outstanding count fall by one; at 0 the
sighting is ACCOUNTED; then the passage completes where R42 lets it. A notice that finds no PLANNED sighting
changes nothing. -/
def Obligations.AccountingNotice : Prop :=
  ∀ (id : PassageId) (n : Nat) (s : State),
    (contextOf id s = none → account id n s = s) ∧
    (∀ (k : ContextId) (p : Passage), contextOf id s = some k → s.passages[k] = some p →
      ((∀ x ∈ p.sightings, ¬(x.number = some n ∧ x.state = .planned)) → account id n s = s) ∧
      ((∃ x ∈ p.sightings, x.number = some n ∧ x.state = .planned) →
        account id n s = completeIfDone id { s with passages := s.passages.set k (some { p with
          outstanding := p.outstanding - 1
          sightings := p.sightings.map fun x =>
            if x.number = some n ∧ x.state = .planned then { x with
              openRequests := x.openRequests - 1
              state := if x.openRequests ≤ 1 then .accounted else .planned }
            else x }) }))

/-- An unpaired notice and an implausible notice raise the passage's count by one, to at most 65,535; neither restarts
the tail timer; a notice for a passage in FINISHING, or for none, changes nothing (R26). -/
def Obligations.WheelCountNotices : Prop :=
  ∀ (id : PassageId) (s : State),
    (∀ (k : ContextId) (p : Passage), contextOf id s = some k → s.passages[k] = some p →
      (p.state ≠ .finishing →
        unpairedNotice id s =
          { s with passages := s.passages.set k (some { p with unpaired := min (p.unpaired + 1) 65535 }) } ∧
        implausibleNotice id s =
          { s with passages := s.passages.set k (some { p with implausible := min (p.implausible + 1) 65535 }) }) ∧
      (p.state = .finishing → unpairedNotice id s = s ∧ implausibleNotice id s = s)) ∧
    (contextOf id s = none → unpairedNotice id s = s ∧ implausibleNotice id s = s)

/-- The schedule's order: due time, then station; placing keeps it, adds the request and moves no other; a request of
the same due time and station as one placed earlier stands after it (R47). Due times are ordered from any `base` that
they all lie after, within half the range of the count, so across its wrap too (log 4). -/
def Obligations.PlacingKeepsOrder : Prop :=
  ∀ (r : Request) (l : List Request) (base : Time),
    let at_ (q : Request) : Nat := (q.due - base).toNat
    let ordered := List.Pairwise (fun (q q' : Request) => at_ q < at_ q' ∨ (q.due = q'.due ∧ q.station ≤ q'.station))
    (∃ before after, l = before ++ after ∧ placeInOrder r l = before ++ r :: after ∧
      (at_ r < 2 ^ 47 → (∀ q ∈ l, at_ q < 2 ^ 47) → ordered l →
        ∀ q ∈ after, ¬(q.due = r.due ∧ q.station = r.station))) ∧
    (at_ r < 2 ^ 47 → (∀ q ∈ l, at_ q < 2 ^ 47) → ordered l → ordered (placeInOrder r l)) ∧
    (placeInOrder r l).Perm (r :: l)

/-- The due time of a request (R50), the stations that serve a sighting (R49), and the checks of a planned station in
order: LATE, OFFLINE, schedule full, placed (R51), which adds the request to the schedule and sets the due timer (R47,
R62); a request placed already due counts among the 48 for the stations after it (log 53). Planning a sighting takes
the stations in order; the answer sets the sighting's open requests and the passage's outstanding count (R33), then
the placed requests that are due and their station's earliest are offered (R58, log 12). A speed revision changes
nothing for a passage without a waiting request; else its requests take new due times, the lapsed ones are missed
LATE, the others placed again, the due timer is set afresh (R62), once and from where it stood before the re-plan (log
43), and the due ones are offered (R54, R55). Times compare and subtract across the wrap (log 4). -/
def Obligations.Planning : Prop :=
  ((∀ (enter leave : Time) (p : StationPlan) (speed : Nat),
    let middle := (plusUs enter (elapsed enter leave / 2)).toNat
    dueTime enter leave .up p speed = BitVec.ofNat 48 (middle + p.offset.toNat * 1000000 / speed - p.lead) ∧
    dueTime enter leave .down p speed = BitVec.ofNat 48 (middle + (-p.offset).toNat * 1000000 / speed - p.lead)) ∧
  (∀ (t : TrackId) (p : StationPlan),
    (serves t .up p = true ↔ p.track = t ∧ p.servesUp = true ∧ 0 < p.offset) ∧
    (serves t .down p = true ↔ p.track = t ∧ p.servesDown = true ∧ p.offset < 0)) ∧
  (∀ (p : Passage) (x : Sighting) (number speed : Nat) (st : StationId) (s : State),
    let program (plan : StationPlan) : Option ProgramId :=
      match p.dir with | .up => plan.programUp | .down => plan.programDown
    (∀ plan n, s.stations[st].plan = some plan → serves p.track p.dir plan = true → program plan = some n →
      requestAt p x number speed st s = some
        { pid := p.id, sighting := number, station := st, program := n
          due := dueTime x.enter x.leave p.dir plan speed, tolerance := plan.tolerance, testSpeed := none }) ∧
    ((∀ plan, s.stations[st].plan = some plan → serves p.track p.dir plan = true → program plan = none) →
      requestAt p x number speed st s = none))) ∧
  (∀ (r : Request) (s : State) (placed : List Request),
    let late := reached (plusUs r.due (r.tolerance + 1)) s.gantryTime = true
    let offline := s.stations[r.station].state = .offline
    (late → planRequest r (s, placed) = (declareMiss false .late r s, placed)) ∧
    (¬late → offline → planRequest r (s, placed) = (declareMiss false .offline r s, placed)) ∧
    (¬late → ¬offline → 48 ≤ s.schedule.length →
      planRequest r (s, placed) = (declareMiss false .notPlanned r (raise
        { code := .scheduleFull, track := some (requestTrack r s), station := some r.station, unit := none
          pid := some r.pid, detail := some 48 } s), placed)) ∧
    (¬late → ¬offline → s.schedule.length < 48 →
      planRequest r (s, placed) = (placeRequest r s, placed ++ [r])) ∧
    placeRequest r s = setDueTimer { s with schedule := placeInOrder r s.schedule }) ∧
  (∀ (k : ContextId) (number : Nat) (p : Passage) (x : Sighting) (s : State), s.passages[k] = some p →
    p.sightings.find? (fun x => x.number == some number) = some x →
    let requests := allStations.filterMap fun st => requestAt p x number (x.speed.getD 0) st s
    let q := requests.foldl (fun q r => planRequest r q) (s, [])
    let n := q.2.length
    let t : State := { q.1 with
      passages := q.1.passages.set k (q.1.passages[k].map fun p => { p with
        outstanding := p.outstanding + n
        sightings := p.sightings.map fun x => if x.number = some number
          then { x with openRequests := n, state := if n = 0 then .accounted else .planned } else x }) }
    planSighting k number s = drain ((q.2.filter fun r => reached r.due t.gantryTime &&
      t.schedule.find? (fun o => o.station == r.station) == some r).map fun r => .offer r.station) t) ∧
  (∀ (k : ContextId) (speed : Nat) (s : State),
    (s.passages[k] = none → revise k speed s = s) ∧
    (∀ p, s.passages[k] = some p → (∀ r ∈ s.schedule, r.pid ≠ p.id) → revise k speed s = s) ∧
    (∀ p, s.passages[k] = some p → (∃ r ∈ s.schedule, r.pid = p.id) →
      let moved := { s with
        schedule := s.schedule.map fun r => if r.pid = p.id then r.replan p speed s else r }
      let kept := missAll .late (moved.schedule.filter fun r => r.pid == p.id &&
        reached (plusUs r.due (r.tolerance + 1)) moved.gantryTime) moved
      let placed := setDueTimer { kept with
        dueTimer := s.dueTimer
        schedule := (kept.schedule.filter fun r => r.pid == p.id).foldl (fun l r => placeInOrder r l)
          (kept.schedule.filter fun r => r.pid != p.id) }
      revise k speed s = drain ((placed.schedule.filter fun r => reached r.due placed.gantryTime).map fun r =>
        .offer r.station) placed) ∧
    (∀ (p : Passage) (r : Request) (x : Sighting) (plan : StationPlan),
      p.sightings.find? (fun x => x.number == some r.sighting) = some x → s.stations[r.station].plan = some plan →
      r.replan p speed s = { r with due := dueTime x.enter x.leave p.dir plan speed }))

/-- Up to and including due time + late tolerance an offer to an IDLE station is good, from the lapse on it is not; a
request with late tolerance 0 can be taken only at its due time (R60). `late` is how many microseconds after the due
time the offer is made, across the wrap of the count too (log 4). That an IDLE station is not handed a request in the
microsecond of its lapse follows R60 over the third row of R63's table (DESIGN CHOICE, log 36). -/
def Obligations.LapseOfRequest : Prop :=
  ∀ (r : Request) (s : State), earliestOf r.station s = some r → s.stations[r.station].state = .idle →
    r.tolerance < 2 ^ 46 →
    r.lapse = plusUs r.due (r.tolerance + 1) ∧
    (∀ late, late < 2 ^ 47 → s.gantryTime = plusUs r.due late →
      (late ≤ r.tolerance → offer r.station s = handOver r s) ∧
      (r.tolerance < late → offer r.station s = (s, []))) ∧
    (reached r.due s.gantryTime = false → offer r.station s = (s, [])) ∧
    (r.tolerance = 0 → s.gantryTime ≠ r.due → offer r.station s = (s, []))

/-- A request taken by its station leaves the schedule and the station enters RUNNING with the run of R59 and R78; a
station that is not IDLE, or whose earliest request is not due, takes nothing (R58). At the due timer's expiry (R62)
the lapsed requests are removed as misses by the state of their station (R61), the due ones are offered in schedule
order, and the timer is set afresh, to the earliest of the due times to come and the lapses of the due requests; an
expiry whose timer does not run or has not come changes nothing (log 3, log 30). A change of the schedule sets the
timer too, and passes over no due time that has come and is not taken yet (log 43). -/
def Obligations.DueRequests : Prop :=
  (∀ (r : Request) (s : State),
    let st := r.station
    handOver r s = ({ unschedule r s with stations := s.stations.set st { s.stations[st] with
        state := .running, restTimer := none
        run := some
          { pid := r.pid, sighting := r.sighting, program := r.program, due := r.due, start := s.gantryTime
            track := requestTrack r s, dir := (passageOf r.pid s).map Passage.dir
            headClass := (sightingOf r s).bind Sighting.headClass, topBeam := (sightingOf r s).map Sighting.topBeam
            speed := r.testSpeed.getD (((passageOf r.pid s).bind Passage.estimate).getD 0)
            testSpeed := r.testSpeed, index := 0, loop := none, exposures := [], wait := .none, outcome := .done
            unsynced := false } } }, [.step st]) ∧
    (earliestOf st s = some r → reached r.due s.gantryTime = false ∨ s.stations[st].state ≠ .idle →
      offer st s = (s, []))) ∧
  (∀ (m : Moment) (s : State),
    let b := taken m s
    let a := { b with dueTimer := none }
    let lapsed := b.schedule.filter fun r => reached (plusUs r.due (r.tolerance + 1)) b.gantryTime
    let reason (r : Request) (s : State) : MissReason := match s.stations[r.station].state with
      | .resting => .waking | .waking => .waking | .offline => .offline | .idle => .busy | .running => .busy
      | .ending => .busy
    let offers (s : State) : List Task :=
      (s.schedule.filter fun r => reached r.due s.gantryTime).map fun r => .offer r.station
    let afresh (s : State) : State := { s with dueTimer := earliestInstant s.gantryTime s.schedule }
    b.device ≠ .failed →
    (expired b.dueTimer b.gantryTime = true → lapsed = [] →
      exec (.dueTimerExpiry m) s = .next (conclude (afresh (drain (offers a) a)))) ∧
    (∀ r, expired b.dueTimer b.gantryTime = true → lapsed = [r] →
      let c := declareMiss true (reason r a) r a
      exec (.dueTimerExpiry m) s = .next (conclude (afresh (drain (offers c) c)))) ∧
    (expired b.dueTimer b.gantryTime = true →
      let c := lapsed.foldl (fun s r => missAll (reason r s) [r] s) a
      exec (.dueTimerExpiry m) s = .next (conclude (afresh (drain (offers c) c)))) ∧
    (expired b.dueTimer b.gantryTime = false → exec (.dueTimerExpiry m) s = .next (conclude b))) ∧
  (∀ s : State,
    (expired s.dueTimer s.gantryTime = false →
      setDueTimer s = { s with dueTimer := earliestInstant s.gantryTime s.schedule }) ∧
    (∀ t, s.dueTimer = some t → reached t s.gantryTime = true →
      setDueTimer s = { s with dueTimer := earliestInstant (t - 1) s.schedule })) ∧
  (∀ (upTo base : Time) (l : List Request),
    let instant (r : Request) : Time := if reached r.due upTo then plusUs r.due (r.tolerance + 1) else r.due
    (l = [] → earliestInstant upTo l = none) ∧
    (l ≠ [] → (∀ r ∈ l, (instant r - base).toNat < 2 ^ 47) →
      ∃ r ∈ l, earliestInstant upTo l = some (instant r) ∧
        ∀ q ∈ l, (instant r - base).toNat ≤ (instant q - base).toNat))

/-- A miss (R53): SHOT_MISSED, the capture record without exposures; a placed request leaves the schedule with its
accounting notice; a test request ends its parked order. A removal takes every waiting request of a passage, or every
test request, in schedule order; a request that a removal before it has taken out is passed over (R56, R57, R65). Then
the due requests that it has made their station's earliest are offered (R58; when and in which order: log 50). -/
def Obligations.MissOfPlacedRequest : Prop :=
  (∀ (r : Request) (reason : MissReason) (s : State),
    let b := raise { code := .shotMissed, track := some (requestTrack r s), station := some r.station, unit := none
                     pid := some r.pid, detail := some (BitVec.ofNat 64 reason.code) } s
    let c := (handRecord (.capture
      { pid := r.pid, sighting := r.sighting, station := r.station, track := requestTrack r b
        dir := (passageOf r.pid b).map Passage.dir, headClass := (sightingOf r b).bind Sighting.headClass
        topBeam := (sightingOf r b).map Sighting.topBeam
        speed := if r.pid = 0 then r.testSpeed else (passageOf r.pid b).bind Passage.estimate
        due := r.due, start := none, outcome := .missed reason, unsynced := false, exposures := [] }) b).1
    let ended (s : State) : State := finishParked (.station r.station) (.ok [byteOf (1 + 4 * reason.code), 0]) s
    c.device ≠ .failed →
    (r.pid ≠ 0 → declareMiss true reason r s = account r.pid r.sighting (unschedule r c)) ∧
    (r.pid = 0 → declareMiss true reason r s = ended (unschedule r c)) ∧
    (r.pid ≠ 0 → declareMiss false reason r s = c) ∧
    (r.pid = 0 → declareMiss false reason r s = ended c)) ∧
  (∀ (r : Request) (s : State), unschedule r s = setDueTimer { s with
    schedule := s.schedule.filter fun q => !(r.pid == q.pid && r.sighting == q.sighting && r.station == q.station) }) ∧
  (∀ (reason : MissReason) (s : State),
    (∀ pid,
      let t := missAll reason (s.schedule.filter fun r => r.pid == pid) s
      let first (st : StationId) (s : State) : Option Request := s.schedule.find? fun r => r.station == st
      removal pid reason s = drain ((t.schedule.filter fun r => reached r.due t.gantryTime &&
        first r.station t == some r && first r.station s != some r).map fun r => .offer r.station) t) ∧
    missAll reason [] s = s ∧
    (∀ (r : Request) (rest : List Request),
      let waits := ∃ q ∈ s.schedule, q.pid = r.pid ∧ q.sighting = r.sighting ∧ q.station = r.station
      (waits → missAll reason (r :: rest) s = missAll reason rest (declareMiss true reason r s)) ∧
      (¬waits → missAll reason (r :: rest) s = missAll reason rest s)))

/-! ## Records, causes and rows (08, 10) -/

/-- A cause of class NOTE, STOP or HOLD: an unrouted cause is noted as code 0 with its own code as the original code
and then signalled; a routed one by its entry (R207, R208, R209). The causes that the placing of its note brings are
raised after the note and before the latch (R207, R210). With eight held records its note meets DOUBLE FAULT: FAILED
with that fail reason, the held records dropped, and CAUSE.FAULT latched as well where the entry or the unrouted state
calls for a signal (R210). A cause of class FATAL takes the device into FAILED with its fail reason and CAUSE.FAILED
latched, and makes no fault note; how much of a card write in progress had landed there is a free value (log 8). A
cause raised in FAILED changes nothing (R202, R206). The code and the class of each cause (10.3). -/
def Obligations.CausesTaken : Prop :=
  (∀ (c : Cause) (s : State), s.device ≠ .failed → c.code.cls ≠ .fatal →
    let note (code : CauseCode) (original : Option CauseCode) : Record := .faultNote
      { code := code, cls := c.code.cls, original := original, time := s.gantryTime, track := c.track
        station := c.station, unit := c.unit, pid := c.pid, detail := c.detail }
    let noted (r : Record) : State := (placeOnce r s).2.2.foldl (fun s c => raise c s) (placeOnce r s).1
    let double := hush (stopCardWrite true (latchFailed { s with device := .failed, failReason := .doubleFault }))
    (c.code.num = 0 ∨ s.routingLimit ≤ c.code.num →
      raise c s = latchFault (noted (note .unrouted (some c.code))) ∧
      (8 ≤ s.writer.held.length → raise c s = latchFault double)) ∧
    (∀ entry, c.code.num ≠ 0 → c.code.num < s.routingLimit → s.routing[c.code.num]? = some entry →
      (entry.note = true →
        raise c s = (if entry.signal then latchFault (noted (note c.code none)) else noted (note c.code none)) ∧
        (8 ≤ s.writer.held.length → raise c s = if entry.signal then latchFault double else double)) ∧
      (entry.note = false → raise c s = if entry.signal then latchFault s else s))) ∧
  (∀ (c : Cause) (s : State),
    (s.device = .failed → raise c s = s) ∧
    (s.device ≠ .failed → c.code.cls = .fatal →
      raise c s = hush (stopCardWrite true (latchFailed { s with
        device := .failed, failReason := if c.code = .doubleFault then .doubleFault else .fatalCause })))) ∧
  (∀ x ∈ ([(.unrouted, 0, .note), (.doubleFault, 1, .fatal), (.wheelUnpaired, 2, .note), (.axleOverrun, 3, .note),
      (.speedImplausible, 4, .note), (.curtainBlind, 5, .stop), (.sightingOverflow, 6, .note), (.passageRefused, 7, .note),
      (.passageStalled, 8, .note), (.scheduleFull, 9, .note), (.shotMissed, 10, .note), (.runFault, 11, .note),
      (.awaitTimeout, 12, .note), (.flashDenied, 13, .note), (.strobeSilent, 14, .stop), (.frameTimeout, 15, .note),
      (.frameMismatch, 16, .note), (.cameraSilent, 17, .stop), (.tileDropped, 18, .note), (.chainDry, 19, .note),
      (.cardCheck, 20, .hold), (.cardEmpty, 21, .hold), (.cardWrite, 22, .hold), (.logFull, 23, .note),
      (.recordLost, 24, .note), (.noticeOverflow, 25, .note), (.rowWrite, 26, .fatal), (.exchangeRead, 27, .fatal)] :
      List (CauseCode × Nat × CauseClass)), x.1.num = x.2.1 ∧ x.1.cls = x.2.2)

/-- A one-row record placed with no held record and the row at the cursor FREE: 127 bytes and then the state byte
WRITTEN are written, the row is announced, the lost count becomes 0, sequence and cursor advance (R158). The bodies of
the records by the offsets of 11.6, 11.7 and 11.8; R215 gives the run start offset, subtracted across the wrap of the
count (log 4), and the miss reason codes; that the miss reason bits are 0 for an outcome other than MISSED is the
model's choice (log 51). A snapshot takes four rows, parts 1 to 4 under one sequence, and the cursor advances by 4
(R159). A bus error at the write of a row discards the record with ROW_WRITE; cursor, sequence and lost count stay
(R160), NOTICE_OVERFLOW of an earlier part is not raised (log 39), and a state byte whose own write failed holds
either value (log 11). At the notice queue (R166) the row numbers are taken one after the other: one in the queue
already is left, one with room is appended, the first without room sets notice overflow, and NOTICE_OVERFLOW is among
the causes of the record (R170); the row is written whichever of these it meets. Row n stands at 0x1000 + 128 n of the
exchange area (11.1; addresses wrap at 64 bits, log 26); numbers stand low byte first. -/
def Obligations.RowIsWritten : Prop :=
  (∀ (row : RowId) (s : State), rowAddr row s = s.base + BitVec.ofNat 64 (0x1000 + 128 * row.val)) ∧
  (∀ x : Nat, byteOf x = BitVec.ofNat 8 x ∧ ∀ n, (le n x).length = n ∧
    ∀ i, i < n → (le n x)[i]? = some (BitVec.ofNat 8 (x / 256 ^ i))) ∧
  (∀ (r : Record) (body : List Byte) (s : State), r.bodies = [body] → Memory.wf s.mem = true → s.device ≠ .failed →
    s.base ≠ 0 → s.writer.held = [] → s.readErrors = [] → s.writeErrors = [] →
    busRead (rowAddr s.writer.rowCursor s) 1 s = [0] →
    s.writer.rowCursor ∉ s.writer.notices → s.writer.notices.length < 64 → body.length ≤ 120 →
    let a := rowAddr s.writer.rowCursor s
    let t := (handRecord r s).1
    (handRecord r s).2 = .written s.writer.rowCursor ∧
    busRead a 128 t = [1, byteOf (r.kindCode + 16)] ++ le 2 s.writer.lost ++ le 4 s.writer.sequence.toNat ++
      body ++ List.replicate (120 - body.length) 0 ∧
    (∀ x, outside x a 128 → Memory.read t.mem x = Memory.read s.mem x) ∧
    t = { s with mem := t.mem, outputs := t.outputs, writer := { s.writer with
      rowCursor := s.writer.rowCursor + 1, sequence := s.writer.sequence + 1, lost := 0
      notices := s.writer.notices ++ [s.writer.rowCursor] } }) ∧
  (∀ r : CaptureRecord,
    (Record.capture r).bodies = [captureBody r] ∧ (Record.capture r).kindCode = 1 ∧
    let at_ := rowField (captureBody r)
    let direction := match r.dir with | some .up => 0 | some .down => 1 | none => 3
    let cls := match r.headClass with | some .raised => 0 | some .lowered => 1 | none => 3
    let outcome := match r.outcome with
      | .done => 0 | .missed reason => 1 + 4 * reason.code | .abandoned => 2 | .faulted => 3
    let base := cardBase r.exposures
    at_ 8 2 = le 2 r.pid.toNat ∧ at_ 10 1 = [byteOf (r.sighting + 16 * r.exposures.length)] ∧
    at_ 11 1 = [byteOf (r.station.val + 16 * r.track.val + 64 * direction)] ∧
    at_ 12 1 = [byteOf (r.topBeam.getD 31 + 64 * cls)] ∧
    at_ 13 1 = [byteOf (outcome + if r.unsynced then 128 else 0)] ∧
    (r.start = none → at_ 14 4 = le 4 (r.speed.getD 131071 + 131072 * 8191)) ∧
    (∀ start, r.start = some start → at_ 14 4 = le 4 (r.speed.getD 131071 + 131072 * elapsed r.due start)) ∧
    at_ 18 6 = le 6 r.due.toNat ∧ at_ 24 8 = le 8 base.toNat ∧
    (∀ n e, r.exposures[n]? = some e → at_ (32 + 12 * n) 12 = exposureEntry (r.start.getD r.due) base e) ∧
    (∀ n, r.exposures.length ≤ n → n < 8 → at_ (32 + 12 * n) 12 = List.replicate 12 0)) ∧
  (∀ (start : Time) (base : Addr) (e : Exposure),
    let carded := e.outcome = .tiled ∨ e.outcome = .failed
    let outcome := match e.outcome with
      | .tiled => 0 | .dropped => 1 | .timedOut => 2 | .mismatched => 3 | .failed => 4 | .pending => 7
    let unit := match e.unit with | some u => u.val | none => 7
    let flags := (if e.dark then 1 else 0) + (if e.glared then 2 else 0) + (if e.clipped then 4 else 0) +
      (if e.truncated then 8 else 0)
    let steps : Int := (((e.card.getD 0).toNat : Int) - (base.toNat : Int)) / 32
    let whole := ((e.card.getD 0).toNat : Int) = (base.toNat : Int) + 32 * steps ∧ -8388607 ≤ steps ∧ steps ≤ 8388607
    let entry (length : Nat) (offset : BitVec 24) : List Byte :=
      le 4 (e.length + 2048 * min (elapsed start e.start) 2097151) ++
        le 4 (length + 4194304 * outcome + 33554432 * unit + 268435456 * flags) ++
        le 4 (offset.toNat + 16777216 * e.tag.toNat)
    (¬carded → exposureEntry start base e = entry 0 0) ∧
    (carded → whole → exposureEntry start base e = entry (e.tileLength.getD 0) (BitVec.ofInt 24 steps)) ∧
    (carded → ¬whole → exposureEntry start base e = entry (e.tileLength.getD 0) (BitVec.ofInt 24 (-8388608)))) ∧
  (∀ es : List Exposure,
    let carded (e : Exposure) : Prop := e.outcome = .tiled ∨ e.outcome = .failed
    ((∀ e ∈ es, ¬carded e) → cardBase es = 0xFFFFFFFFFFFFFFFF) ∧
    (∀ before e after a, es = before ++ e :: after → (∀ x ∈ before, ¬carded x) → carded e → e.card = some a →
      cardBase es = a)) ∧
  (∀ r : PassageRecord,
    (Record.passage r).bodies = [passageBody r] ∧ (Record.passage r).kindCode = 2 ∧
    let at_ := rowField (passageBody r)
    at_ 8 2 = le 2 r.id.toNat ∧ at_ 10 1 = [byteOf r.track.val] ∧
    at_ 11 1 = [match r.dir with | .up => 0 | .down => 1] ∧
    at_ 12 1 = [match r.close with
      | some .cleared => 0 | some .stalled => 1 | some .abandoned => 2 | some .trackClosed => 3 | none => 255] ∧
    at_ 13 1 = [byteOf r.sightings] ∧ at_ 14 1 = [byteOf r.untimed] ∧ at_ 16 6 = le 6 r.openTime.toNat ∧
    at_ 22 6 = le 6 r.lastPulse.toNat ∧ at_ 28 4 = le 4 (r.minSpeed.getD 0xFFFFFFFF) ∧
    at_ 32 4 = le 4 (r.maxSpeed.getD 0xFFFFFFFF) ∧ at_ 36 2 = le 2 r.axles ∧ at_ 38 2 = le 2 r.overflow ∧
    at_ 40 2 = le 2 r.roofItems ∧ at_ 42 2 = le 2 r.unpaired ∧ at_ 44 2 = le 2 r.implausible) ∧
  (∀ r : FaultNote,
    (Record.faultNote r).bodies = [faultNoteBody r] ∧ (Record.faultNote r).kindCode = 3 ∧
    let at_ := rowField (faultNoteBody r)
    at_ 8 1 = [byteOf r.code.num] ∧
    at_ 9 1 = [match r.cls with | .note => 0 | .stop => 1 | .hold => 2 | .fatal => 3] ∧
    at_ 10 1 = [byteOf ((if r.original.isSome then 1 else 0) + (if r.track.isSome then 2 else 0) +
      (if r.station.isSome then 4 else 0) + (if r.unit.isSome then 8 else 0) + (if r.pid.isSome then 16 else 0) +
      (if r.detail.isSome then 32 else 0))] ∧
    at_ 11 1 = [byteOf ((r.original.map CauseCode.num).getD 0)] ∧ at_ 12 1 = [byteOf ((r.track.map Fin.val).getD 0)] ∧
    at_ 13 1 = [byteOf ((r.station.map Fin.val).getD 0)] ∧ at_ 14 1 = [byteOf ((r.unit.map Fin.val).getD 0)] ∧
    at_ 16 2 = le 2 (r.pid.getD 0).toNat ∧ at_ 18 6 = le 6 r.time.toNat ∧ at_ 24 8 = le 8 (r.detail.getD 0).toNat) ∧
  (([.late, .offline, .notPlanned, .busy, .waking, .stalled, .abandoned] : List MissReason).map MissReason.code =
    [0, 1, 2, 3, 4, 5, 6]) ∧
  (∀ (p1 p2 p3 p4 : List Byte) (s : State), Memory.wf s.mem = true → s.device ≠ .failed → s.base ≠ 0 →
    s.writer.held = [] → s.readErrors = [] → s.writeErrors = [] →
    let row (i : Nat) : RowId := s.writer.rowCursor + Fin.ofNat 512 i
    (∀ i, i < 4 → busRead (rowAddr (row i) s) 1 s = [0] ∧ row i ∉ s.writer.notices) →
    s.writer.notices.length + 4 ≤ 64 → (∀ body ∈ [p1, p2, p3, p4], body.length ≤ 120) →
    let q := handRecord (.snapshot p1 p2 p3 p4) s
    q.2 = .written s.writer.rowCursor ∧
    (∀ i body, [p1, p2, p3, p4][i]? = some body → busRead (rowAddr (row i) s) 128 q.1 =
      [1, byteOf (4 + 16 * (i + 1))] ++ le 2 s.writer.lost ++ le 4 s.writer.sequence.toNat ++ body ++
        List.replicate (120 - body.length) 0) ∧
    (∀ x, (∀ i, i < 4 → outside x (rowAddr (row i) s) 128) → Memory.read q.1.mem x = Memory.read s.mem x) ∧
    q.1 = { s with mem := q.1.mem, outputs := q.1.outputs, writer := { s.writer with
      rowCursor := s.writer.rowCursor + 4, sequence := s.writer.sequence + 1, lost := 0
      notices := s.writer.notices ++ [row 0, row 1, row 2, row 3] } }) ∧
  (∀ (r : Record) (s : State), Memory.wf s.mem = true → s.writeErrors = [] →
    (∀ body ∈ r.bodies, body.length ≤ 120) →
    let rows := rowsFrom s.writer.rowCursor r.bodies.length
    let n := rows.foldl (fun (n : List RowId × Bool × Option RowId) row =>
      if row ∈ n.1 then n else if n.1.length < 64 then (n.1 ++ [row], n.2.1, n.2.2)
      else if n.2.1 = true then n else (n.1, true, some row)) (s.writer.notices, s.writer.overflow, none)
    let q := writeRecord r s
    q.1 = { s with mem := q.1.mem, outputs := q.1.outputs, writer := { s.writer with
      rowCursor := s.writer.rowCursor + Fin.ofNat 512 r.bodies.length, sequence := s.writer.sequence + 1, lost := 0
      notices := n.1, overflow := n.2.1 } } ∧
    q.2.1 = .written s.writer.rowCursor ∧
    q.2.2 = (match n.2.2 with
      | some row => [{ code := .noticeOverflow, track := none, station := none, unit := none, pid := none
                       detail := some (BitVec.ofNat 64 row.val) }]
      | none => []) ∧
    (∀ i row body, rows[i]? = some row → r.bodies[i]? = some body → busRead (rowAddr row s) 128 q.1 =
      [1, byteOf (r.kindCode + 16 * (i + 1))] ++ le 2 s.writer.lost ++ le 4 s.writer.sequence.toNat ++ body ++
        List.replicate (120 - body.length) 0) ∧
    (∀ x, (∀ row ∈ rows, outside x (rowAddr row s) 128) → Memory.read q.1.mem x = Memory.read s.mem x) ∧
    (∀ body, r.bodies = [body] →
      let row := s.writer.rowCursor
      let sent := s.outputs ++ [.hostWrite (offsetAddr (rowAddr row s) 1) ([byteOf (r.kindCode + 16)] ++
        le 2 s.writer.lost ++ le 4 s.writer.sequence.toNat ++ body ++ List.replicate (120 - body.length) 0),
        .hostWrite (rowAddr row s) [1]]
      q.1.outputs = (appendNotice row { s with mem := q.1.mem, outputs := sent }).1.outputs)) ∧
  (∀ (r : Record) (s : State), (∀ body ∈ r.bodies, body.length ≤ 120) →
    let rows := rowsFrom s.writer.rowCursor r.bodies.length
    let bad (row : RowId) (i : Nat) : Prop := (offsetAddr (rowAddr row s) i).toNat ∈ s.writeErrors
    let q := writeRecord r s
    ((∀ row ∈ rows, ∀ i, i < 128 → ¬bad row i) → q.2.1 = .written s.writer.rowCursor) ∧
    ((∃ row ∈ rows, ∃ i, i < 128 ∧ bad row i) →
      q.2.1 = .discarded ∧
      (∃ row ∈ rows, q.2.2 = [{ code := .rowWrite, track := none, station := none, unit := none, pid := none
                                detail := some (BitVec.ofNat 64 row.val) }]) ∧
      q.1.writer = { s.writer with notices := q.1.writer.notices, overflow := q.1.writer.overflow }) ∧
    (∀ body, r.bodies = [body] → Memory.wf s.mem = true →
      let a := rowAddr s.writer.rowCursor s
      ((∃ i, 1 ≤ i ∧ i < 128 ∧ bad s.writer.rowCursor i) →
        q.1 = { s with mem := q.1.mem, outputs := q.1.outputs } ∧ busRead a 1 q.1 = busRead a 1 s) ∧
      ((∀ i, 1 ≤ i → i < 128 → ¬bad s.writer.rowCursor i) → bad s.writer.rowCursor 0 →
        q.1 = { s with mem := q.1.mem, outputs := q.1.outputs, freeCount := s.freeCount + 1 } ∧
        (busRead a 1 q.1 = busRead a 1 s ∨ busRead a 1 q.1 = [1]))))

/-- What a record handed to the writer meets (R158, R159, R160, R171): it is discarded in FAILED; behind a held
record, or with the base 0, it goes to the held queue with no row read and no LOG_FULL; else its rows are read, and it
is written, blocked at the first row WRITTEN, or discarded with ROW_WRITE at a bus error; then the causes are raised
in order (R170). A record that finds the log full (R161, R162, R163): held where there is room, with LOG_FULL where
the queue was empty; else a fault note meets DOUBLE FAULT and any other record is lost and counted, RECORD_LOST naming
its track, station and passage id where it has them. A row number at the notice queue (R166): one in the queue is left
as it is, one with room is appended, and the first without room sets notice overflow and asks for NOTICE_OVERFLOW. -/
def Obligations.FullQueuesOfTheWriter : Prop :=
  (∀ r : Record, r.isNote = true ↔ ∃ note, r = .faultNote note) ∧
  (∀ (r : Record) (full : Option RowId) (s : State),
    let held := s.writer.held
    let room := held.length < 8 ∧ (r.isNote = true ∨ (held.filter fun x => !x.isNote).length < 6)
    let lost := min (s.writer.lost + 1) 65535
    (room → holdRecord r full s = ({ s with writer := { s.writer with held := held ++ [r] } }, .held,
      match full with
      | some row => [{ code := .logFull, track := none, station := none, unit := none, pid := none
                       detail := some (BitVec.ofNat 64 row.val) }]
      | none => [])) ∧
    (¬room → r.isNote = true → holdRecord r full s = (s, .discarded,
      [{ code := .doubleFault, track := none, station := none, unit := none, pid := none, detail := none }])) ∧
    (¬room → r.isNote = false → (holdRecord r full s).1 = { s with writer := { s.writer with lost := lost } } ∧
      (holdRecord r full s).2.1 = .lost ∧
      (holdRecord r full s).2.2 = [
        { code := .recordLost
          track := match r with
            | .capture x => some x.track | .passage x => some x.track | .faultNote _ => none | .snapshot _ _ _ _ => none
          station := match r with
            | .capture x => some x.station | .passage _ => none | .faultNote _ => none | .snapshot _ _ _ _ => none
          unit := none
          pid := match r with
            | .capture x => some x.pid | .passage x => some x.id | .faultNote _ => none | .snapshot _ _ _ _ => none
          detail := some (BitVec.ofNat 64 lost) }])) ∧
  (∀ (r : Record) (s : State),
    let read := readRows s (rowsFrom s.writer.rowCursor r.bodies.length)
    let straight := s.device ≠ .failed ∧ s.writer.held = [] ∧ s.base ≠ 0
    (s.device = .failed → placeOnce r s = (s, .discarded, [])) ∧
    (s.device ≠ .failed → s.writer.held ≠ [] ∨ s.base = 0 → placeOnce r s = holdRecord r none s) ∧
    (straight → read = .free → placeOnce r s = writeRecord r s) ∧
    (∀ row, straight → read = .blocked row → placeOnce r s = holdRecord r (some row) s) ∧
    (∀ row, straight → read = .busError row → placeOnce r s = (s, .discarded,
      [{ code := .rowWrite, track := none, station := none, unit := none, pid := none
         detail := some (BitVec.ofNat 64 row.val) }])) ∧
    handRecord r s = ((placeOnce r s).2.2.foldl (fun s c => raise c s) (placeOnce r s).1, (placeOnce r s).2.1)) ∧
  (∀ (row : RowId) (s : State),
    (row ∈ s.writer.notices → appendNotice row s = (s, false)) ∧
    (row ∉ s.writer.notices → s.writer.notices.length < 64 →
      appendNotice row s =
        (withIrq (fun s => { s with writer := { s.writer with notices := s.writer.notices ++ [row] } }) s, false)) ∧
    (row ∉ s.writer.notices → 64 ≤ s.writer.notices.length → s.writer.overflow = false →
      appendNotice row s = ({ s with writer := { s.writer with overflow := true } }, true)) ∧
    (row ∉ s.writer.notices → 64 ≤ s.writer.notices.length → s.writer.overflow = true → appendNotice row s = (s, false)))

/-! ## Stations and runs (04) -/

/-- A station's ready answer, rest timer and wake limit, and its entry into OFFLINE, with and without a run (R72, R73,
R74). CAMERA_SILENT is raised before the entry into OFFLINE (log 37); the aborted run has no step wait (log 54); an
expiry whose timer does not run or has not come changes nothing (log 3). -/
def Obligations.StationEvents : Prop :=
  ∀ (m : Moment) (st : StationId) (s : State),
    let b := taken m s
    let x := b.stations[st]
    let idle := { b with stations := b.stations.set st { x with
      state := .idle, wakeTimer := none
      restTimer := match x.plan with
        | none => none
        | some p => if p.restS = 0 then none else some (plusUs b.gantryTime (p.restS * 1000000)) } }
    let silent := raise { code := .cameraSilent, track := some (stationTrack st b), station := some st, unit := none
                          pid := none, detail := none } b
    b.device ≠ .failed →
    (b.ports[st].configured = true → x.state = .waking →
      exec (.readyAnswer m st) s = .next (conclude (drain [.offer st] idle)) ∧
      ((∀ r ∈ b.schedule, r.station ≠ st) → exec (.readyAnswer m st) s = .next (conclude idle))) ∧
    (b.ports[st].configured = false ∨ x.state ≠ .waking → exec (.readyAnswer m st) s = .next (conclude b)) ∧
    (x.state = .idle → expired x.restTimer b.gantryTime = true →
      exec (.restTimerExpiry m st) s = .next (stationRests st { b with
        stations := b.stations.set st { x with state := .resting, restTimer := none, wakeTimer := none }
        outputs := b.outputs ++ [.standby st] })) ∧
    (x.state ≠ .idle ∨ expired x.restTimer b.gantryTime = false → exec (.restTimerExpiry m st) s = .next b) ∧
    (x.state = .waking → expired x.wakeTimer b.gantryTime = true →
      exec (.wakeLimitExpiry m st) s = .next (conclude (enterOffline st silent)) ∧
      (silent.device ≠ .failed → x.run = none → enterOffline st silent =
        let off := { silent with
          stations := silent.stations.set st { x with state := .offline, restTimer := none, wakeTimer := none }
          ports := silent.ports.set st { silent.ports[st] with awaited := [] } }
        stationRests st (missAll .offline (off.schedule.filter fun r => r.station == st) off))) ∧
    (x.state ≠ .waking ∨ expired x.wakeTimer b.gantryTime = false →
      exec (.wakeLimitExpiry m st) s = .next (conclude b)) ∧
    (cameraSilent st b = enterOffline st silent) ∧
    (∀ r, x.run = some r → enterOffline st b =
      let off := drain [.closeOut st] { b with
        waiting := if r.wait = .flash then b.waiting.filter (fun q => q.station != st) else b.waiting
        stations := b.stations.set st { x with
          state := .offline, restTimer := none, wakeTimer := none
          run := some { r with
            wait := .none, outcome := if r.outcome = .done then .abandoned else r.outcome
            exposures := r.exposures.map fun e =>
              if e.outcome = .pending ∧ e.received = false then { e with outcome := .timedOut } else e } }
        ports := b.ports.set st { b.ports[st] with awaited := [] } }
      stationRests st (missAll .offline (off.schedule.filter fun r => r.station == st) off))

/-- The end of an exposure, of a PAUSE and of an AWAIT's time: the run goes on to its next step, or ends its steps at
step 31 (R80, R82, R83, R87, R112, R121). An exposure of a closed-out run that is still open beside a later one of its
station closes at its own end, with an arbitration pass (log 22). An expiry whose instant has not come changes nothing
(log 3). What a report of a tile outcome does to the exposure's entry, and the close-out of a run (R89, R90, R94);
that the miss reason bits of a test run's outcome byte are 0 is the model's choice (log 51). The frame timer runs for
the station's frame timeout, which the plan gives in ms (R118, R121). -/
def Obligations.RunTimers : Prop :=
  (∀ (m : Moment) (st : StationId) (s : State),
    let b := taken m s
    let goOn (r : Run) (c : State) : State :=
      if r.index = 31 then drain [.closeOut st] (modStation st (fun x => { x with
        state := .ending, run := x.run.map fun r => { r with wait := .none } }) c)
      else drain [.step st] (modRun st (fun r => { r with index := r.index + 1, wait := .none }) c)
    let beside (x : Lingering) : Bool := x.station == st && reached x.finish b.gantryTime
    let closed := arbitrationPass { b with openExposures := b.openExposures.set st none }
    let timed (e : OpenExposure) : State := modPort st (fun p => { p with awaited := p.awaited.map fun a =>
      if a.number = e.number ∧ a.phase = .opened
      then { a with phase := .waiting (plusUs e.finish (frameTimeoutUs st closed)) } else a }) closed
    b.device ≠ .failed →
    (∀ x, b.lingering.find? beside = some x →
      exec (.exposureEnd m st) s = .next (conclude (arbitrationPass { b with lingering := b.lingering.erase x }))) ∧
    (∀ e, b.lingering.find? beside = none → b.openExposures[st] = some e → reached e.finish b.gantryTime = true →
      (∀ r, closed.stations[st].run = some r → r.wait = .exposure e.finish →
        exec (.exposureEnd m st) s = .next (conclude (goOn r (timed e)))) ∧
      ((∀ r ∈ closed.stations[st].run, r.wait ≠ .exposure e.finish) →
        exec (.exposureEnd m st) s = .next (conclude (timed e)))) ∧
    (b.lingering.find? beside = none → (∀ e ∈ b.openExposures[st], reached e.finish b.gantryTime = false) →
      exec (.exposureEnd m st) s = .next (conclude b)) ∧
    (∀ r finish, b.stations[st].run = some r → r.wait = .pause finish → reached finish b.gantryTime = true →
      exec (.pauseEnd m st) s = .next (conclude (goOn r b))) ∧
    ((∀ r ∈ b.stations[st].run, ∀ finish, r.wait = .pause finish → reached finish b.gantryTime = false) →
      exec (.pauseEnd m st) s = .next (conclude b)) ∧
    (∀ r expiry mask timeout, b.stations[st].run = some r → r.wait = .await expiry →
      currentStep r b = some (.await mask timeout) → reached expiry b.gantryTime = true →
      let named := allStations.filter fun x => mask.getLsbD x.val && x != st
      let missing := named.filter fun x => !b.stations[st].marks.contains { sender := x, pid := r.pid }
      let late := raise { code := .awaitTimeout, track := some (stationTrack st b), station := some st, unit := none
                          pid := some r.pid, detail := some (BitVec.ofNat 64 (missing.map fun x => 2 ^ x.val).sum) }
        (modRun st (fun r => { r with unsynced := true }) b)
      exec (.awaitTimerExpiry m st) s = .next (conclude (goOn r (modStation st (fun x => { x with
        marks := x.marks.filter fun n => !(named.contains n.sender && n.pid == r.pid) }) late)))) ∧
    ((∀ r ∈ b.stations[st].run, ∀ expiry, r.wait = .await expiry → reached expiry b.gantryTime = false) →
      exec (.awaitTimerExpiry m st) s = .next (conclude b))) ∧
  (∀ (st : StationId) (n : Nat) (rep : TileReport) (s : State),
    (∀ r e, s.stations[st].run = some r → r.exposures[n]? = some e →
      (e.outcome = .pending → reportTile st (n + 1) rep s = drain [.closeOut st] (modRun st (fun r => { r with
        exposures := r.exposures.set n { e with
          outcome := rep.outcome, card := rep.card, tileLength := rep.length, clipped := rep.clipped
          truncated := rep.truncated } }) s)) ∧
      (e.outcome ≠ .pending → reportTile st (n + 1) rep s = s)) ∧
    ((∀ r ∈ s.stations[st].run, r.exposures.length ≤ n) → reportTile st (n + 1) rep s = s) ∧
    reportTile st 0 rep s = s) ∧
  (∀ (st : StationId) (s : State),
    (s.stations[st].run = none → closeOut st s = (s, [])) ∧
    (∀ r, s.stations[st].run = some r →
      let ended := s.stations[st].state = .ending ∨ s.stations[st].state = .offline
      let outcome : CaptureOutcome := match r.outcome with
        | .done => .done | .faulted => .faulted | .abandoned => .abandoned
      let code := (match r.outcome with | .done => 0 | .abandoned => 2 | .faulted => 3) + if r.unsynced then 128 else 0
      let t := (handRecord (.capture
        { pid := r.pid, sighting := r.sighting, station := st, track := r.track, dir := r.dir, headClass := r.headClass
          topBeam := r.topBeam, speed := some r.speed, due := r.due, start := some r.start, outcome := outcome
          unsynced := r.unsynced, exposures := r.exposures }) s).1
      let u := if r.pid = 0 then finishParked (.station st) (.ok [byteOf code, byteOf r.exposures.length]) t
        else account r.pid r.sighting t
      let x := u.stations[st]
      (¬ended ∨ (∃ e ∈ r.exposures, e.outcome = .pending) → closeOut st s = (s, [])) ∧
      (ended → (∀ e ∈ r.exposures, e.outcome ≠ .pending) →
        (u.device = .failed → closeOut st s = (u, [])) ∧
        (u.device ≠ .failed → x.state ≠ .ending →
          closeOut st s = ({ u with stations := u.stations.set st { x with run := none } }, [])) ∧
        (u.device ≠ .failed → x.state = .ending →
          closeOut st s = ({ u with stations := u.stations.set st { x with
            run := none, state := .idle, wakeTimer := none
            restTimer := match x.plan with
              | none => none
              | some p => if p.restS = 0 then none else some (plusUs u.gantryTime (p.restS * 1000000)) } },
            [.offer st]))))) ∧
  (∀ (st : StationId) (plan : StationPlan) (s : State), s.stations[st].plan = some plan →
    frameTimeoutUs st s = plan.frameTimeout * 1000)

/-- What the runner does at the step a RUNNING station's run stands at, and what is handled after it (R79 to R86,
R91); what a delivered mark does to its receiver (R85, R86); what an abort does to a run, and which runs it reaches:
those of the passage, in station order (R92, R111, log 35); that an aborted run has no step wait while its exposure
stays open is the model's choice (log 54). The receivers of a MARK take it in station order (log 46). The speed of a
distance PAUSE is the test speed, or the passage's estimate as held when the PAUSE begins (R83). What one event brings
the runners is handled depth first: the first task, then what it brought, then the rest (R80, R85, R90; log 13). -/
def Obligations.StepKinds : Prop :=
  (∀ (st : StationId) (r : Run) (s : State),
    s.stations[st].state = .running → s.stations[st].run = some r → r.wait = .none →
    let set (r : Run) : State := { s with stations := s.stations.set st { s.stations[st] with run := some r } }
    let ends (r : Run) : State := { s with stations := s.stations.set st { s.stations[st] with
      state := .ending, run := some { r with wait := .none } } }
    let fault (detail : Nat) : State × List Task :=
      (raise { code := .runFault, track := some (stationTrack st s), station := some st, unit := none, pid := some r.pid
               detail := some (BitVec.ofNat 64 detail) } (ends { r with outcome := .faulted }), [.closeOut st])
    let done (r : Run) : State × List Task :=
      if r.index = 31 then (ends r, [.closeOut st]) else (set { r with index := r.index + 1 }, [.step st])
    let step := (s.programs[r.program]).map fun p => p[r.index]
    (step = none → takeStep st s = fault 0) ∧
    (step = some .finish → takeStep st s = (ends r, [.closeOut st])) ∧
    (∀ amount, step = some (.pause .time amount) →
      takeStep st s = (set { r with wait := .pause (plusUs s.gantryTime amount) }, [])) ∧
    (∀ amount, step = some (.pause .distance amount) →
      takeStep st s = (set { r with wait := .pause (plusUs s.gantryTime (amount * 1000000 / pauseSpeed r s)) }, [])) ∧
    (∀ target count, step = some (.loop target count) →
      (r.loop = none → takeStep st s = (set { r with loop := some (r.index, count), index := target }, [.step st])) ∧
      (∀ left, r.loop = some (r.index, left) → 1 < left →
        takeStep st s = (set { r with loop := some (r.index, left - 1), index := target }, [.step st])) ∧
      (∀ left, r.loop = some (r.index, left) → left ≤ 1 → takeStep st s = done { r with loop := none }) ∧
      (∀ i left, r.loop = some (i, left) → i ≠ r.index → takeStep st s = fault r.index.val)) ∧
    (∀ length intensity mask wait, step = some (.expose length intensity mask wait) →
      (8 ≤ r.exposures.length → takeStep st s = fault r.index.val) ∧
      (r.exposures.length < 8 → intensity = 0 → takeStep st s = (beginExposure st length none false s, [])) ∧
      (r.exposures.length < 8 → intensity ≠ 0 →
        takeStep st s = (requestFlash
          { station := st, number := r.exposures.length + 1, mask := mask
            usable := mask &&& (match s.stations[st].plan with | some p => p.strobeMask | none => 0)
            intensity := intensity, length := length, deadline := plusUs s.gantryTime wait }
          (set { r with wait := .flash }), []))) ∧
    (∀ mask, step = some (.mark mask) →
      takeStep st s = ((done r).1, ((allStations.filter fun x => mask.getLsbD x.val && x != st).map fun x =>
        .deliver x { sender := st, pid := r.pid }) ++ (done r).2)) ∧
    (∀ mask timeout, step = some (.await mask timeout) →
      let named := allStations.filter fun x => mask.getLsbD x.val && x != st
      ((∃ x ∈ named, { sender := x, pid := r.pid } ∉ s.stations[st].marks) →
        takeStep st s = (set { r with wait := .await (plusUs s.gantryTime timeout) }, [])) ∧
      ((∀ x ∈ named, { sender := x, pid := r.pid } ∈ s.stations[st].marks) →
        let rest := s.stations[st].marks.filter fun n => !(named.contains n.sender && n.pid == r.pid)
        takeStep st s = (modStation st (fun x => { x with marks := rest }) (done r).1, (done r).2)))) ∧
  (∀ (m : Mark) (marks : List Mark),
    ((∃ x ∈ marks, x.sender = m.sender) →
      takeMark m marks = marks.map fun x => if x.sender = m.sender then m else x) ∧
    ((∀ x ∈ marks, x.sender ≠ m.sender) → takeMark m marks = marks ++ [m])) ∧
  (∀ (st : StationId) (m : Mark) (s : State),
    let t := modStation st (fun x => { x with marks := takeMark m x.marks }) s
    (∀ r expiry mask timeout, s.stations[st].run = some r → r.wait = .await expiry →
      currentStep r s = some (.await mask timeout) →
      let named := allStations.filter fun x => mask.getLsbD x.val && x != st
      let goOn (c : State) : State × List Task :=
        if r.index = 31 then (modStation st (fun x => { x with
          state := .ending, run := x.run.map fun r => { r with wait := .none } }) c, [.closeOut st])
        else (modRun st (fun r => { r with index := r.index + 1, wait := .none }) c, [.step st])
      ((∀ x ∈ named, { sender := x, pid := r.pid } ∈ t.stations[st].marks) →
        deliverMark st m s = goOn (modStation st (fun x => { x with
          marks := x.marks.filter fun n => !(named.contains n.sender && n.pid == r.pid) }) t)) ∧
      ((∃ x ∈ named, { sender := x, pid := r.pid } ∉ t.stations[st].marks) → deliverMark st m s = (t, []))) ∧
    ((∀ r ∈ s.stations[st].run, ∀ expiry, r.wait ≠ .await expiry) → deliverMark st m s = (t, []))) ∧
  (∀ (st : StationId) (s : State),
    (s.stations[st].run = none → abortRun st s = s) ∧
    (∀ r, s.stations[st].run = some r → abortRun st s = { s with
      waiting := if r.wait = .flash then s.waiting.filter (fun q => q.station != st) else s.waiting
      stations := s.stations.set st { s.stations[st] with
        state := if s.stations[st].state = .running then .ending else s.stations[st].state
        run := some { r with wait := .none, outcome := if r.outcome = .done then .abandoned else r.outcome } } })) ∧
  (∀ (pid : PassageId) (s : State),
    abortPassage pid s = ([0, 1, 2, 3, 4, 5, 6, 7] : List StationId).foldl (fun s st =>
      if s.stations[st].run.map Run.pid = some pid then drain [.closeOut st] (abortRun st s) else s) s) ∧
  (∀ (r : Run) (s : State),
    (∀ v, r.testSpeed = some v → pauseSpeed r s = v) ∧
    (∀ k p v, r.testSpeed = none → contextOf r.pid s = some k → s.passages[k] = some p → p.estimate = some v →
      pauseSpeed r s = v)) ∧
  (∀ (n : Nat) (t : Task) (ts : List Task) (s : State),
    let handled : State × List Task := match t with
      | .step st => takeStep st s
      | .deliver st m => deliverMark st m s
      | .closeOut st => closeOut st s
      | .offer st => offer st s
    drain ts s = drainTo (8192 * (s.schedule.length + 16)) ts s ∧ drainTo n [] s = s ∧
    drainTo (n + 1) (t :: ts) s = drainTo n (handled.2 ++ ts) handled.1 ∧
    drainTo 0 (t :: ts) s = { s with undone := s.undone ++ t :: ts })

/-! ## Strobe bank (05) -/

/-- The bank's events: a ready, a recharge limit, a pulse end (R100, R101, R109); and what a station's entry into or
leaving of the group RESTING, OFFLINE does to its units (R103, R104). An expiry whose timer does not run or has not
come changes nothing (log 3). -/
def Obligations.StrobeUnits : Prop :=
  (∀ (m : Moment) (u : UnitId) (s : State),
    let b := taken m s
    let x := b.units[u]
    let users := ∀ st : StationId, x.users.getLsbD st.val = true →
      b.stations[st].state = .resting ∨ b.stations[st].state = .offline
    let pulsed := { x with fireLine := false, firing := none, pulseEnd := none }
    b.device ≠ .failed →
    (x.state = .charging → exec (.strobeReady m u) s = .next (arbitrationPass { b with
      units := b.units.set u { x with state := .ready, rechargeTimer := none } })) ∧
    (x.state ≠ .charging → exec (.strobeReady m u) s = .next b) ∧
    (x.state = .charging → expired x.rechargeTimer b.gantryTime = true →
      exec (.rechargeTimerExpiry m u) s = .next (conclude (raise
        { code := .strobeSilent, track := none, station := none, unit := some u, pid := none
          detail := some (BitVec.ofNat 64 x.rechargeMs) }
        { b with units := b.units.set u { x with state := .out, supply := false, rechargeTimer := none } }))) ∧
    (x.state ≠ .charging ∨ expired x.rechargeTimer b.gantryTime = false →
      exec (.rechargeTimerExpiry m u) s = .next (conclude b)) ∧
    (x.state = .firing → expired x.pulseEnd b.gantryTime = true → users →
      exec (.pulseEnd m u) s = .next { b with
        units := b.units.set u { pulsed with state := .resting, supply := false, rechargeTimer := none } }) ∧
    (x.state = .firing → expired x.pulseEnd b.gantryTime = true → ¬users →
      exec (.pulseEnd m u) s = .next { b with units := b.units.set u { pulsed with
        state := .charging, supply := true
        rechargeTimer := some (plusUs b.gantryTime (x.rechargeMs * 1000)) } }) ∧
    (x.state ≠ .firing ∨ expired x.pulseEnd b.gantryTime = false → exec (.pulseEnd m u) s = .next b)) ∧
  (∀ (st : StationId) (s : State) (u : UnitId),
    let x := s.units[u]
    let rested := stationRests st s
    let woken := stationWakes st s
    let users := ∀ st : StationId, x.users.getLsbD st.val = true →
      s.stations[st].state = .resting ∨ s.stations[st].state = .offline
    rested = { s with units := rested.units } ∧ woken = { s with units := woken.units } ∧
    (x.users.getLsbD st.val = true → users → x.state = .charging ∨ x.state = .ready →
      rested.units[u] = { x with state := .resting, supply := false, rechargeTimer := none }) ∧
    (¬(x.users.getLsbD st.val = true ∧ users ∧ (x.state = .charging ∨ x.state = .ready)) → rested.units[u] = x) ∧
    (x.users.getLsbD st.val = true → x.state = .resting →
      woken.units[u] = { x with
        state := .charging, supply := true, rechargeTimer := some (plusUs s.gantryTime (x.rechargeMs * 1000)) }) ∧
    (¬(x.users.getLsbD st.val = true ∧ x.state = .resting) → woken.units[u] = x))

/-- The glare interlock bars a unit for a request exactly when some station other than the requester is
glare-sensitive, on a track within the unit's glare reach, and has an open exposure (R107), be it one of a closed-out
run beside a later one (log 22). The unit granted is the lowest-numbered usable READY unit that is not barred; a pass
takes the waiting requests in list order (R106). A request that arrives joins the list by deadline, then station, and
a pass is made; one that it did not grant and whose deadline has come is denied (R105, R81). An exposure is GLARED
when, at its opening, a FIRING unit of another station has this station, glare-sensitive, within its reach (R113).
Deadlines are ordered from any `base` that they lie after, within half the range of the count (log 4). -/
def Obligations.GlareInterlock : Prop :=
  (∀ (u : UnitId) (requester : StationId) (s : State),
    barred u requester s = true ↔
      ∃ st : StationId, st ≠ requester ∧ (∃ p, s.stations[st].plan = some p ∧ p.sensitive = true ∧
        s.units[u].reach.getLsbD p.track.val = true) ∧
        (s.openExposures[st] ≠ none ∨ ∃ x ∈ s.lingering, x.station = st)) ∧
  (∀ (q : FlashRequest) (s : State),
    let good (u : UnitId) : Prop :=
      q.usable.getLsbD u.val = true ∧ s.units[u].state = .ready ∧ barred u q.station s = false
    (∀ u, grantable q s = some u ↔ good u ∧ ∀ v, v < u → ¬good v) ∧
    (grantable q s = none ↔ ∀ u, ¬good u)) ∧
  (∀ s : State,
    (s.waiting = [] → arbitrationPass s = s) ∧
    ((∀ q ∈ s.waiting, grantable q s = none) → arbitrationPass s = s) ∧
    arbitrationPass s = s.waiting.foldl (fun s q => match grantable q s with
      | none => s
      | some u => grant q u s) s) ∧
  (∀ (q : FlashRequest) (s : State),
    let t := arbitrationPass { s with waiting := insertFlash q s.waiting }
    let c := beginExposure q.station q.length none true
      { t with waiting := t.waiting.filter fun r => r.station != q.station }
    (q ∈ t.waiting → reached q.deadline t.gantryTime = true → requestFlash q s = raise
      { code := .flashDenied, track := some (stationTrack q.station c), station := some q.station, unit := none
        pid := c.stations[q.station].run.map Run.pid, detail := some (BitVec.ofNat 64 q.number) } c) ∧
    (q ∉ t.waiting ∨ reached q.deadline t.gantryTime = false → requestFlash q s = t)) ∧
  (∀ (r : FlashRequest) (l : List FlashRequest) (base : Time),
    let at_ (q : FlashRequest) : Nat := (q.deadline - base).toNat
    let ordered := List.Pairwise (fun (q q' : FlashRequest) =>
      at_ q < at_ q' ∨ (q.deadline = q'.deadline ∧ q.station ≤ q'.station))
    (∃ before after, l = before ++ after ∧ insertFlash r l = before ++ r :: after) ∧
    (at_ r < 2 ^ 47 → (∀ q ∈ l, at_ q < 2 ^ 47) → ordered l → ordered (insertFlash r l))) ∧
  (∀ (st : StationId) (s : State),
    isGlared st s = true ↔ ∃ u : UnitId, ∃ other : StationId, s.units[u].state = .firing ∧
      s.units[u].firing = some other ∧ other ≠ st ∧
      ∃ p, s.stations[st].plan = some p ∧ p.sensitive = true ∧ s.units[u].reach.getLsbD p.track.val = true)

/-- A flash request whose deadline has come is denied: it leaves the waiting list, its exposure begins unlit and DARK,
and FLASH_DENIED is raised (R110, R81). The deadline command denies the first such request of the list (log 23), and
changes nothing where none has come (log 3). A grant takes the request off the list, fires the unit and begins the
exposure lit (R108). An exposure that begins enters the run's list, the port's awaited list and the register (R82,
R112, R120); one that still stands in the station's place there stays open beside it (log 22). -/
def Obligations.FlashesAndExposures : Prop :=
  (∀ (m : Moment) (s : State),
    let b := taken m s
    b.device ≠ .failed →
    (∀ r, b.waiting.find? (fun r => reached r.deadline b.gantryTime) = some r →
      let c := beginExposure r.station r.length none true
        { b with waiting := b.waiting.filter fun q => q.station != r.station }
      exec (.flashDeadline m) s = .next (conclude (raise
        { code := .flashDenied, track := some (stationTrack r.station c), station := some r.station, unit := none
          pid := c.stations[r.station].run.map Run.pid, detail := some (BitVec.ofNat 64 r.number) } c))) ∧
    ((∀ r ∈ b.waiting, reached r.deadline b.gantryTime = false) →
      exec (.flashDeadline m) s = .next (conclude b))) ∧
  (∀ (q : FlashRequest) (u : UnitId) (s : State),
    grant q u s = beginExposure q.station q.length (some u) false { s with
      waiting := s.waiting.filter fun w => w.station != q.station
      units := s.units.set u { s.units[u] with
        state := .firing, firing := some q.station, fireLine := true
        pulseEnd := some (plusUs s.gantryTime (min (20 * q.intensity) q.length)) } }) ∧
  (∀ (st : StationId) (length : Nat) (unit : Option UnitId) (dark : Bool) (r : Run) (s : State),
    s.stations[st].run = some r →
    let tag := s.ports[st].nextTag
    let finish := plusUs s.gantryTime length
    let entry : OpenExposure := { number := r.exposures.length + 1, start := s.gantryTime, finish := finish }
    beginExposure st length unit dark s = { s with
      stations := s.stations.set st { s.stations[st] with run := some { r with
        wait := .exposure finish
        exposures := r.exposures ++ [{ start := s.gantryTime, length := length, unit := unit, tag := tag, dark := dark
                                       glared := isGlared st s, clipped := false, truncated := false
                                       received := false, outcome := .pending, card := none
                                       tileLength := none }] } }
      ports := s.ports.set st { s.ports[st] with
        nextTag := tag + 1
        awaited := s.ports[st].awaited ++ [{ number := r.exposures.length + 1, tag := tag, phase := .opened }] }
      outputs := s.outputs ++ [.trigger st tag length]
      openExposures := s.openExposures.set st (some entry)
      lingering := match s.openExposures[st] with
        | none => s.lingering
        | some e => s.lingering ++ [{ station := st, finish := e.finish }] })

/-! ## Camera ports (06) -/

/-- A frame arrives (R119, R122, R129), and a frame timer expires (R123, R130). The FRAME_MISMATCH of an unfit frame
names the run held when the frame arrives (log 31); an expiry whose timer does not run or has not come changes nothing
(log 3). -/
def Obligations.Frames : Prop :=
  (∀ (m : Moment) (st : StationId) (f : Frame) (s : State),
    let b := taken m s
    let pid := b.stations[st].run.map Run.pid
    let cause (code : CauseCode) (pid : Option PassageId) (detail : Nat) : Cause :=
      { code := code, track := some (stationTrack st b), station := some st, unit := none, pid := pid
        detail := some (BitVec.ofNat 64 detail) }
    let heard (number : Nat) : State := modPort st (fun p => { p with
      silent := 0, awaited := p.awaited.filter fun a => a.number != number }) b
    let fit := (f.depth = 8 ∨ f.depth = 16) ∧ 1 ≤ f.width ∧ f.width ≤ 4096 ∧ 1 ≤ f.height ∧ f.height ≤ 4096 ∧
      f.data.length = f.width * f.height * (f.depth / 8)
    b.device ≠ .failed →
    (b.ports[st].configured = false → exec (.frameArrival m st f) s = .next (conclude b)) ∧
    (b.ports[st].configured = true → (∀ a ∈ b.ports[st].awaited, a.tag ≠ f.tag) →
      exec (.frameArrival m st f) s = .next (conclude (raise (cause .frameMismatch pid f.tag.toNat)
        (modPort st (fun p => { p with silent := 0 }) b)))) ∧
    (∀ a, b.ports[st].configured = true → b.ports[st].awaited.find? (fun a => a.tag == f.tag) = some a →
      let received := frameReceived st a.number (heard a.number)
      (¬fit → exec (.frameArrival m st f) s = .next (conclude
        (frameMismatch st f.tag pid (reportTile st a.number (.plain .mismatched false) received)))) ∧
      (∀ r plan, fit → received.stations[st].run = some r → b.stations[st].plan = some plan →
        let tile := cropTile st a.number plan r f
        (b.mover.queue.length < 8 → exec (.frameArrival m st f) s = .next (conclude
          (tryTake { received with mover := { b.mover with queue := b.mover.queue ++ [tile] } }))) ∧
        (8 ≤ b.mover.queue.length → exec (.frameArrival m st f) s = .next (conclude
          (raise (cause .tileDropped (some r.pid) a.number)
            (reportTile st a.number (.plain .dropped tile.clipped) received)))))) ∧
    (∀ number,
      let count := b.ports[st].silent + 1
      let timed := raise (cause .frameTimeout pid count) (modPort st (fun p => { p with
        silent := count, awaited := p.awaited.filter fun a => a.number != number }) b)
      ((∃ a ∈ b.ports[st].awaited, a.number = number ∧
          ∃ expiry, a.phase = .waiting expiry ∧ reached expiry b.gantryTime = true) →
        (count < 3 → exec (.frameTimerExpiry m st number) s =
          .next (conclude (reportTile st number (.plain .timedOut false) timed))) ∧
        (3 ≤ count → exec (.frameTimerExpiry m st number) s = .next (conclude (cameraSilent st timed)))) ∧
      ((∀ a ∈ b.ports[st].awaited, a.number = number →
          ∀ expiry, a.phase = .waiting expiry → reached expiry b.gantryTime = false) →
        exec (.frameTimerExpiry m st number) s = .next (conclude b)))) ∧
  (∀ (st : StationId) (s : State),
    (∀ n, frameReceived st (n + 1) s = modRun st (fun r => { r with
      exposures := r.exposures.modify n fun e => { e with received := true } }) s) ∧
    (∀ tag pid, frameMismatch st tag pid s = raise
      { code := .frameMismatch, track := some (stationTrack st s), station := some st, unit := none, pid := pid
        detail := some (BitVec.ofNat 64 tag.toNat) } s)) ∧
  (∀ (outcome : TileOutcome) (clipped : Bool), TileReport.plain outcome clipped =
    { outcome := outcome, card := none, length := none, clipped := clipped, truncated := false })

/-- The crop window clamped to the frame (R126, R127), and the tile made of it: its header by the offsets of 11.4,
then the pixels of the kept area row by row, as they stand in the frame (R128). That a 16-bit pixel stands there low
byte first is the model's choice (DESIGN CHOICE, log 38). -/
def Obligations.CropWindow : Prop :=
  (∀ (start : Int) (length limit : Nat),
    let c := clamp start length limit
    c.1 + c.2 ≤ limit ∧ c.2 ≤ length ∧
    (0 ≤ start → start + length ≤ limit → 0 < length → c = (start.toNat, length)) ∧
    (start + length ≤ 0 ∨ (limit : Int) ≤ start → c = (0, 0)) ∧
    (start < limit → 0 < start + length → 0 < length → 0 < limit →
      (c.1 : Int) = max 0 start ∧ ((c.1 + c.2 : Nat) : Int) = min (start + length) limit)) ∧
  (∀ (st : StationId) (n : Nat) (plan : StationPlan) (r : Run) (f : Frame),
    let tile := cropTile st n plan r f
    let row := (match r.topBeam with | some beam => plan.heights.getD beam 0 | none => plan.testRow)
    let cols := clamp plan.cropLeft plan.cropWidth f.width
    let rows := clamp ((row : Int) - (plan.cropHeight / 2 : Nat)) plan.cropHeight f.height
    tile.station = st ∧ tile.number = n ∧ tile.pid = r.pid ∧ tile.sighting = r.sighting ∧
    (cols.2 ≠ 0 → rows.2 ≠ 0 →
      tile.clipped = (decide (cols.2 < plan.cropWidth) || decide (rows.2 < plan.cropHeight)) ∧
      tile.bytes = tileHeader cols.2 rows.2 f.depth cols.1 rows.1 f.width f.height ++
        keptPixels f cols.1 rows.1 cols.2 rows.2) ∧
    (cols.2 = 0 ∨ rows.2 = 0 →
      tile.bytes = tileHeader 0 0 f.depth 0 0 f.width f.height ∧
      (0 < plan.cropWidth ∨ 0 < plan.cropHeight → tile.clipped = true))) ∧
  (∀ width height depth left top frameWidth frameHeight : Nat,
    tileHeader width height depth left top frameWidth frameHeight =
      le 2 width ++ le 2 height ++ [byteOf depth, 0] ++ le 2 left ++ le 2 top ++ le 2 frameWidth ++ le 2 frameHeight ++
        [0, 0]) ∧
  (∀ (f : Frame) (left top width height : Nat),
    let bytes := f.depth / 8
    let kept := keptPixels f left top width height
    f.data.length = f.width * f.height * bytes → left + width ≤ f.width → top + height ≤ f.height →
    kept.length = width * height * bytes ∧
    ∀ row col b, row < height → col < width → b < bytes →
      kept[(row * width + col) * bytes + b]? = f.data[((top + row) * f.width + (left + col)) * bytes + b]?)

/-! ## The tile mover (07) -/

/-- A take begins exactly when a tile waits, the chain is OK, the cursor is AT a card and the phase is IDLE (R138);
the entry into DRY latches CAUSE.DRY and raises CHAIN_DRY (R144). The completions of the mover's reads: a take (R139),
a follow (R142), a probe (R146), after which `endRead` clears look pending, and where it was set and the chain is DRY
and IDLE, reads the card at the cursor, or the next field of the card behind, once more (R146). A completion without
its read changes nothing; one of a read that a GIVE CHAIN abandoned is discarded, and the oldest read of a kind
completes first (R147, log 7). -/
def Obligations.MoverReads : Prop :=
  (∀ s : State,
    (∀ a, s.device ≠ .failed → s.mover.queue ≠ [] → s.mover.condition = .ok → s.mover.cursor = .at a →
      s.mover.phase = .idle →
      tryTake s = { s with mover := { s.mover with phase := .taking }, outputs := s.outputs ++ [.hostRead a 32] }) ∧
    (s.mover.queue = [] ∨ s.mover.condition ≠ .ok ∨ (∀ a, s.mover.cursor ≠ .at a) ∨ s.mover.phase ≠ .idle →
      tryTake s = s) ∧
    (∀ a, s.mover.condition = .dry → enterDry a s = s) ∧
    (∀ a, s.mover.condition ≠ .dry → enterDry a s = raise
      { code := .chainDry, track := none, station := none, unit := none, pid := none, detail := some a }
      (latchDry { s with mover := { s.mover with condition := .dry, hold := none } }))) ∧
  (∀ (m : Moment) (s : State),
    let b := taken m s
    let idle := { b with mover := { b.mover with phase := .idle } }
    let held (reason : HoldReason) (code : CauseCode) (tile : Option Tile) (a : Addr) : State := raise
      { code := code, track := tile.map fun t => stationTrack t.station b, station := tile.map Tile.station, unit := none
        pid := tile.map Tile.pid, detail := some a }
      { b with mover := { b.mover with condition := .held, hold := some reason, phase := .idle } }
    let head := b.mover.queue.head?
    b.device ≠ .failed →
    (∀ a, .taking ∉ b.mover.abandoned → b.mover.phase = .taking → b.mover.cursor = .at a →
      exec (.takeReadCompletion m none) s = .next (conclude (endRead (held .cardCheck .cardCheck head a))) ∧
      ∀ card : List Byte,
        let owned := card.getD 0 0 = 0x5A
        let summed := card.foldl (· + ·) 0 = 0
        let capacity := leAt card 4 4
        let run := exec (.takeReadCompletion m (some card)) s
        (¬owned → run = .next (conclude (endRead (enterDry a idle)))) ∧
        (owned → ¬summed → run = .next (conclude (endRead (held .cardCheck .cardCheck head a)))) ∧
        (owned → summed → capacity < 4096 → run = .next (conclude (endRead (held .cardEmpty .cardEmpty head a)))) ∧
        (owned → summed → 4096 ≤ capacity → a ∈ b.mover.withdrawn →
          run = .next (conclude (endRead { b with mover := { b.mover with
            phase := .marking, withdrawn := b.mover.withdrawn.filter (fun x => x != a)
            marked := some { address := a, next := BitVec.ofNat 64 (leAt card 16 8) } } }))) ∧
        (∀ tile rest, owned → summed → 4096 ≤ capacity → a ∉ b.mover.withdrawn → b.mover.queue = tile :: rest →
          run = .next (conclude (endRead { b with mover := { b.mover with
            phase := .writing, queue := rest
            current := some { address := a, capacity := capacity, buffer := BitVec.ofNat 64 (leAt card 8 8)
                              tile := tile } } })))) ∧
    (∀ a, .following ∉ b.mover.abandoned → b.mover.phase = .following → b.mover.cursor = .after a →
      exec (.followReadCompletion m none) s = .next (conclude (endRead (held .cardCheck .cardCheck none a))) ∧
      exec (.followReadCompletion m (some 0)) s = .next (conclude (endRead (enterDry a idle))) ∧
      ∀ n, n ≠ 0 → exec (.followReadCompletion m (some n)) s = .next (conclude (endRead (tryTake
        { b with mover := { b.mover with phase := .idle, cursor := .at n, condition := .ok } })))) ∧
    (.probing ∉ b.mover.abandoned → b.mover.phase = .probing →
      exec (.probeReadCompletion m (some 0x5A)) s = .next (conclude (endRead (tryTake
        { b with mover := { b.mover with phase := .idle, condition := .ok } }))) ∧
      ∀ owner, owner ≠ some 0x5A → exec (.probeReadCompletion m owner) s = .next (conclude (endRead idle))) ∧
    (∀ card next owner,
      let without (phase : Phase) : State :=
        { b with mover := { b.mover with abandoned := b.mover.abandoned.erase phase } }
      (.taking ∉ b.mover.abandoned → b.mover.phase ≠ .taking →
        exec (.takeReadCompletion m card) s = .next (conclude b)) ∧
      (.following ∉ b.mover.abandoned → b.mover.phase ≠ .following →
        exec (.followReadCompletion m next) s = .next (conclude b)) ∧
      (.probing ∉ b.mover.abandoned → b.mover.phase ≠ .probing →
        exec (.probeReadCompletion m owner) s = .next (conclude b)) ∧
      (.taking ∈ b.mover.abandoned →
        exec (.takeReadCompletion m card) s = .next (conclude (without .taking))) ∧
      (.following ∈ b.mover.abandoned →
        exec (.followReadCompletion m next) s = .next (conclude (without .following))) ∧
      (.probing ∈ b.mover.abandoned →
        exec (.probeReadCompletion m owner) s = .next (conclude (without .probing))))) ∧
  (∀ s : State,
    let t := { s with mover := { s.mover with lookPending := false } }
    let again := s.mover.lookPending = true ∧ s.mover.condition = .dry ∧ s.mover.phase = .idle
    (¬again → endRead s = t) ∧
    (again → s.mover.cursor = .absent → endRead s = t) ∧
    (∀ a, again → s.device ≠ .failed → s.mover.cursor = .at a → endRead s =
      { t with mover := { t.mover with phase := .probing }, outputs := s.outputs ++ [.hostRead a 1] }) ∧
    (∀ a, again → s.device ≠ .failed → s.mover.cursor = .after a → endRead s =
      { t with mover := { t.mover with phase := .following }, outputs := s.outputs ++ [.hostRead (a + 16) 8] }))

/-- The ends of the mover's writes (R140, R141, R142, R143): every write of the phase has landed, or one met a bus
error after `landed` bytes (log 8). After a card write the tile is reported, then the mover follows the chain or goes
to the pending head. After a bus error what the card can still take is attempted, then the tile is reported FAILED;
unless that took the device into FAILED, CARD_WRITE is taken: first its HOLD action, with the drain context taking the
address if it is absent and the cursor at the pending head or after the card, then its routing (R206, log 32). What
stands in host memory after the writes of a phase: the tile's bytes in the buffer, where it lies beside the card, the
device fields, lowest offset first by the model's choice (log 56), the owner byte HOST (R140, R141). The attempt is
one bus write after the other, each up to the first address that answers with an error (R143, log 21). -/
def Obligations.MoverWrites : Prop :=
  (∀ (m : Moment) (s : State),
    let b := taken m s
    let held (tile : Option Tile) (a : Addr) (s : State) : State :=
      if s.device = .failed then s else raise
        { code := .cardWrite, track := tile.map fun t => stationTrack t.station s, station := tile.map Tile.station
          unit := none, pid := tile.map Tile.pid, detail := some a }
        { s with mover := { s.mover with
          phase := .idle, current := none, marked := none, condition := .held, hold := some .cardWrite
          drainContext := some (s.mover.drainContext.getD a)
          cursor := match s.mover.pendingHead with | some head => .at head | none => .after a
          pendingHead := none } }
    let idle (s : State) : State := { s with mover := { s.mover with phase := .idle } }
    b.device ≠ .failed →
    (∀ c, b.mover.phase = .marking → b.mover.marked = some c →
      let runs := [(offsetAddr c.address 2, [3]), (c.address, [0])]
      let done := landRuns runs 2 b
      let free := { done with mover := { done.mover with phase := .idle, marked := none } }
      (∀ head, b.mover.pendingHead = some head → exec (.markingCompletion m) s = .next (conclude (tryTake
        { free with mover := { free.mover with cursor := .at head, pendingHead := none } }))) ∧
      (b.mover.pendingHead = none → c.next ≠ 0 → exec (.markingCompletion m) s = .next (conclude (tryTake
        { free with mover := { free.mover with cursor := .at c.next } }))) ∧
      (b.mover.pendingHead = none → c.next = 0 → exec (.markingCompletion m) s = .next (conclude (enterDry c.address
        { free with mover := { free.mover with cursor := .after c.address } }))) ∧
      (∀ landed,
        let stopped := landRuns runs (min landed 1) b
        let tried := if 1 ≤ landed then stopped else attemptRuns [(c.address, [0])] stopped
        exec (.writeBusError m landed) s = .next (conclude (held none c.address (idle tried))))) ∧
    (∀ c, b.mover.phase = .writing → b.mover.current = some c →
      let cut := decide (c.capacity < c.tile.bytes.length)
      let kept := c.tile.bytes.take c.capacity
      let report (outcome : TileOutcome) : TileReport :=
        { outcome := outcome, card := some c.address, length := some kept.length, clipped := c.tile.clipped
          truncated := cut }
      let runs := [(c.buffer, kept), (offsetAddr c.address 2, [if cut then 2 else 1, byteOf c.tile.station.val]),
        (offsetAddr c.address 24, le 4 kept.length ++ le 2 c.tile.pid.toNat ++
          [byteOf c.tile.number, byteOf c.tile.sighting]), (c.address, [0])]
      let done := landRuns runs (kept.length + 11) b
      let free := reportTile c.tile.station c.tile.number (report .tiled)
        { done with mover := { done.mover with phase := .idle, current := none } }
      runsLength runs = kept.length + 11 ∧
      exec (.writeCompletion m) s = .next (conclude (if free.device = .failed then free else afterWrite c free)) ∧
      (∀ landed,
        let stopped := landRuns runs (min landed (kept.length + 10)) b
        let tried := if kept.length + 10 ≤ landed then stopped else attemptRuns
          [(offsetAddr c.address 2, [4, byteOf c.tile.station.val]), (offsetAddr c.address 24, le 4 kept.length ++
            le 2 c.tile.pid.toNat ++ [byteOf c.tile.number, byteOf c.tile.sighting]), (c.address, [0])] stopped
        exec (.writeBusError m landed) s = .next (conclude (held (some c.tile) c.address
          (reportTile c.tile.station c.tile.number (report .failed) (idle tried)))))) ∧
    (b.mover.phase = .idle → ∀ landed,
      exec (.markingCompletion m) s = .next (conclude b) ∧ exec (.writeCompletion m) s = .next (conclude b) ∧
      exec (.writeBusError m landed) s = .next (conclude b))) ∧
  (∀ (c : CurrentCard) (s : State),
    (∀ head, s.mover.pendingHead = some head → afterWrite c s = tryTake
      { s with mover := { s.mover with cursor := .at head, pendingHead := none } }) ∧
    (s.mover.pendingHead = none → s.device ≠ .failed → afterWrite c s = { s with
      mover := { s.mover with cursor := .after c.address, phase := .following }
      outputs := s.outputs ++ [.hostRead (c.address + 16) 8] })) ∧
  (∀ (c : CurrentCard) (s : State), Memory.wf s.mem = true → c.tile.bytes.length ≤ 2 ^ 64 →
    let cut := decide (c.capacity < c.tile.bytes.length)
    let kept := c.tile.bytes.take c.capacity
    let fields := le 4 kept.length ++ le 2 c.tile.pid.toNat ++ [byteOf c.tile.number, byteOf c.tile.sighting]
    let status : List Byte := [if cut then 2 else 1, byteOf c.tile.station.val]
    let t := landRuns [(c.buffer, kept), (offsetAddr c.address 2, status), (offsetAddr c.address 24, fields),
      (c.address, [0])] (kept.length + 11) s
    busRead c.address 1 t = [0] ∧ busRead (offsetAddr c.address 2) 2 t = status ∧
    busRead (offsetAddr c.address 24) 8 t = fields ∧
    ((∀ i, i < kept.length → outside (offsetAddr c.buffer i).toNat c.address 32) →
      busRead c.buffer kept.length t = kept)) ∧
  (∀ (a : Addr) (s : State), Memory.wf s.mem = true →
    let t := landRuns [(offsetAddr a 2, [3]), (a, [0])] 2 s
    busRead a 1 t = [0] ∧ busRead (offsetAddr a 2) 1 t = [3]) ∧
  (∀ (r : Addr × List Byte) (rest : List (Addr × List Byte)) (s : State),
    attemptRuns [] s = s ∧ attemptRuns (r :: rest) s = attemptRuns rest (busWrite r.1 r.2 s).1) ∧
  (∀ (a : Addr) (bytes : List Byte) (n : Nat) (s : State), Memory.wf s.mem = true → bytes.length ≤ 2 ^ 64 →
    n ≤ bytes.length → (∀ i, i < n → (offsetAddr a i).toNat ∉ s.writeErrors) →
    (n < bytes.length → (offsetAddr a n).toNat ∈ s.writeErrors) →
    let q := busWrite a bytes s
    q.1 = { s with mem := q.1.mem, outputs := s.outputs ++ [.hostWrite a (bytes.take n)] } ∧
    (q.2 = true ↔ n = bytes.length) ∧ busRead a n q.1 = bytes.take n ∧
    (∀ x, outside x a n → Memory.read q.1.mem x = Memory.read s.mem x))

/-! ## Orders (09) -/

/-- The finish of an order (R182): result reason and result bytes, then the state byte, then CAUSE.ORDERS; no other
byte of host memory changes. A bus error on any of the writes raises EXCHANGE_READ with the slot's offset: the later
writes are not made, the state byte stays as it was, CAUSE.ORDERS is not latched, and the device enters FAILED (R182,
R180); the result bytes before the one that met the error stand (log 21). In FAILED no slot is finished (R197). That
the reason is written before the result bytes is the model's choice (log 58). A parked order leaves the parked order
list at its finish (R178, R182). The codes of the result reasons (11.3). Slot n stands at 0x400 + 64 n of the exchange
area (11.1; addresses wrap at 64 bits, log 26). -/
def Obligations.OrderFinish : Prop :=
  (∀ (slot : SlotId) (s : State), slotAddr slot s = s.base + BitVec.ofNat 64 (0x400 + 64 * slot.val)) ∧
  (∀ (slot : SlotId) (res : OrderResult) (s : State), Memory.wf s.mem = true → s.device ≠ .failed →
    s.writeErrors = [] → res.bytes.length ≤ 32 →
    let a := slotAddr slot s
    let t := writeFinish slot res s
    t = latchOrders { s with mem := t.mem, outputs := s.outputs ++
      [.hostWrite (offsetAddr a 2) [byteOf res.reason.code],
       .hostWrite (offsetAddr a 32) (res.bytes ++ List.replicate (32 - res.bytes.length) 0),
       .hostWrite a [if res.done then 3 else 4]] } ∧
    busRead a 1 t = [if res.done then 3 else 4] ∧ busRead (offsetAddr a 2) 1 t = [byteOf res.reason.code] ∧
    busRead (offsetAddr a 32) 32 t = res.bytes ++ List.replicate (32 - res.bytes.length) 0 ∧
    (∀ x, x ≠ a.toNat → x ≠ (offsetAddr a 2).toNat → outside x (offsetAddr a 32) 32 →
      Memory.read t.mem x = Memory.read s.mem x)) ∧
  (∀ (slot : SlotId) (res : OrderResult) (s : State), Memory.wf s.mem = true → res.bytes.length ≤ 32 →
    let a := slotAddr slot s
    let bad (n : Nat) : Prop := (offsetAddr a n).toNat ∈ s.writeErrors
    let reason := [byteOf res.reason.code]
    let bytes := res.bytes ++ List.replicate (32 - res.bytes.length) 0
    let stopped (outputs : List Output) (reads : State → Prop) : Prop :=
      ∃ t : State, t = { s with mem := t.mem, outputs := s.outputs ++ outputs } ∧ reads t ∧
        writeFinish slot res s = exchangeRead (0x400 + 64 * slot.val) t ∧ (writeFinish slot res s).device = .failed ∧
        (writeFinish slot res s).failReason = .fatalCause ∧
        (writeFinish slot res s).latches.orders = s.latches.orders
    (s.device = .failed → writeFinish slot res s = s) ∧
    (s.device ≠ .failed → bad 2 → stopped [.hostWrite (offsetAddr a 2) []] fun t => t.mem = s.mem) ∧
    (∀ n, s.device ≠ .failed → ¬bad 2 → n < 32 → (∀ i, i < n → ¬bad (32 + i)) → bad (32 + n) →
      stopped [.hostWrite (offsetAddr a 2) reason, .hostWrite (offsetAddr a 32) (bytes.take n)] fun t =>
        busRead (offsetAddr a 2) 1 t = reason ∧ busRead (offsetAddr a 32) n t = bytes.take n ∧
        ∀ x, x ≠ (offsetAddr a 2).toNat → outside x (offsetAddr a 32) n → Memory.read t.mem x = Memory.read s.mem x) ∧
    (s.device ≠ .failed → ¬bad 2 → (∀ i, i < 32 → ¬bad (32 + i)) → bad 0 →
      stopped [.hostWrite (offsetAddr a 2) reason, .hostWrite (offsetAddr a 32) bytes, .hostWrite a []] fun t =>
        busRead (offsetAddr a 2) 1 t = reason ∧ busRead (offsetAddr a 32) 32 t = bytes ∧
        ∀ x, x ≠ (offsetAddr a 2).toNat → outside x (offsetAddr a 32) 32 → Memory.read t.mem x = Memory.read s.mem x)) ∧
  (∀ bytes reason, OrderResult.ok bytes = { done := true, reason := .none, bytes := bytes } ∧
    OrderResult.refused reason bytes = { done := false, reason := reason, bytes := bytes }) ∧
  (∀ (w : ParkedFor) (res : OrderResult) (s : State),
    let waiting := s.engine.parked.filter fun p => p.waits == w
    (waiting = [] → finishParked w res s = s) ∧
    (∀ p, waiting = [p] → finishParked w res s = writeFinish p.slot res (unpark p s))) ∧
  (∀ (p : Parked) (s : State),
    unpark p s = { s with engine := { s.engine with parked := s.engine.parked.filter fun q => q != p } }) ∧
  (([.none, .wrongState, .badKind, .badArgument, .planCheck, .readError, .noSuchPassage, .stationBusy, .parkFull,
    .already, .partialResult, .failed] : List Reason).map Reason.code = List.range 12)

/-- Where an order is not taken or not accepted (R180, R181): no slot is taken with the base 0, while the scan waits
on a read, or while the engine holds the slot; a bus error at the write of TAKEN is fatal; an order in a device state
that does not accept it is refused with WRONG_STATE. An order row where no scan can take its slot changes nothing (log
6). That the result bytes of a SET REST refused so are all 0 is the model's choice (log 41). What a scan alone can
bring to the take of a slot: a kind that is none of the eleven orders, a CLOSE TRACK mode that is neither NOW nor
AFTER, a SET REST action that is neither REST nor WAKE (R181, R186, R194); an order row takes its slot as the scan
does, with the scan at that slot (log 6). -/
def Obligations.OrdersNotAccepted : Prop :=
  (∀ (c : Instr) (slot : SlotId) (o : Order) (s : State), orderIn c = some (slot, o) →
    let b := taken (momentOf c) s
    let accepted := match o with
      | .loadPlan _ => b.device = .dormant ∨ b.device = .ready
      | .loadPrograms _ _ => b.device = .dormant ∨ b.device = .ready
      | .openTrack _ => b.device = .watching
      | .closeTrack _ _ => b.device = .watching
      | .testShot _ _ _ => b.device = .watching
      | .abandonPassage _ => b.device = .watching ∨ b.device = .stopping
      | .setRest _ _ => b.device = .ready ∨ b.device = .watching
      | _ => True
    b.device ≠ .failed →
    (b.base = 0 ∨ b.engine.executing ≠ none ∨ holdsSlot slot b = true → exec c s = .next (conclude b)) ∧
    (slotFree slot b = true → ¬accepted →
      exec c s = .next (orderEnded (writeFinish slot (.refused .wrongState []) (slotTaken slot b)))) ∧
    (b.base ≠ 0 → b.engine.executing = none → holdsSlot slot b = false → (slotAddr slot b).toNat ∈ b.writeErrors →
      ∃ t, exec c s = .next t ∧ t.device = .failed ∧ t.failReason = .fatalCause) ∧
    (b.base ≠ 0 → b.engine.executing = none → holdsSlot slot b = false → exec c s =
      .next (conclude (endScan (takeOrder slot o { b with engine := { b.engine with scan := some slot } }))))) ∧
  (∀ (slot : SlotId) (s : State), s.device ≠ .failed →
    let t := (busWrite (slotAddr slot s) [2] s).1
    let refused (reason : Reason) : State :=
      let u := writeFinish slot (.refused reason []) t
      if u.device = .failed then u else settle u
    ((slotAddr slot s).toNat ∈ s.writeErrors → ∀ o, takeOrder slot o s = exchangeRead (0x400 + 64 * slot.val) t) ∧
    ((slotAddr slot s).toNat ∉ s.writeErrors →
      takeOrder slot .badKind s = refused .badKind ∧
      (∀ track mode : Byte, 2 ≤ mode.toNat →
        takeOrder slot (.closeTrack track mode) s =
          refused (if s.device = .watching then .badArgument else .wrongState)) ∧
      ∀ mask action : Byte, 2 ≤ action.toNat →
        takeOrder slot (.setRest mask action) s =
          refused (if s.device = .ready ∨ s.device = .watching then .badArgument else .wrongState)))

/-- LOAD PLAN, LOAD PROGRAMS and WITHDRAW CARDS begin their read, on which the scan waits; a program mask of 0 and a
count of 0 or above 16 are refused with BAD_ARGUMENT before any read (R69, R177, R183, R185, R192), the latter with
result bytes that are all 0 by the model's choice (log 41). What a program table puts into the store: each step is
judged by R70 (a REPEAT that fails both of its checks reports BAD TARGET, log 18), the steps after the first FINISH
are held as FINISH, the first failing step of the named programs, in program order, stops the check, and every program
of an accepted table becomes LOADED (R68, R69). -/
def Obligations.OrdersThatRead : Prop :=
  (∀ (m : Moment) (slot : SlotId) (a : Addr) (s : State),
    let b := taken m s
    let t := slotTaken slot b
    let reads (r : LongRead) (length : Nat) : Host.Outcome State Fault Refusal := .next (orderEnded { t with
      engine := { t.engine with executing := some (slot, r) }, outputs := t.outputs ++ [.hostRead a length] })
    let bad := Host.Outcome.next (orderEnded (writeFinish slot (.refused .badArgument []) t))
    slotFree slot b = true →
    (b.device = .dormant ∨ b.device = .ready →
      exec (.loadPlan m slot a) s = reads (.plan a) 872 ∧
      exec (.loadPrograms m slot 0 a) s = bad ∧
      ∀ mask, mask ≠ 0 → exec (.loadPrograms m slot mask a) s = reads (.programs mask a) 4096) ∧
    (∀ count : Byte,
      (1 ≤ count.toNat → count.toNat ≤ 16 →
        exec (.withdrawCards m slot count a) s = reads (.addresses count.toNat a) (8 * count.toNat)) ∧
      (count = 0 ∨ 16 < count.toNat → exec (.withdrawCards m slot count a) s = bad))) ∧
  (∀ (table : List Byte) (o i : Nat),
    let byte (n : Nat) : Nat := leAt table (o + n) 1
    let half (n : Nat) : Nat := leAt table (o + n) 2
    let amount := leAt table (o + 4) 4
    let ranges := 10 ≤ half 4 ∧ half 4 ≤ 2000 ∧ byte 1 ≤ 8 ∧ half 6 ≤ 2000 ∧ byte 2 < 64
    let exposes := ranges ∧ (byte 1 = 0 ∨ byte 2 ≠ 0)
    let step := stepAt table o i
    (byte 0 = 0 ∨ 6 < byte 0 → step = .error .unknownStep) ∧
    (byte 0 = 1 → exposes → step = .ok (.expose (half 4) (byte 1) (BitVec.ofNat 6 (byte 2)) (half 6))) ∧
    (byte 0 = 1 → ¬exposes → step = .error .outOfRange) ∧
    (byte 0 = 2 → byte 1 = 0 → 1 ≤ amount → amount ≤ 1000000 → step = .ok (.pause .time amount)) ∧
    (byte 0 = 2 → byte 1 = 0 → amount = 0 ∨ 1000000 < amount → step = .error .outOfRange) ∧
    (byte 0 = 2 → byte 1 = 1 → 1 ≤ amount → amount ≤ 60000 → step = .ok (.pause .distance amount)) ∧
    (byte 0 = 2 → byte 1 = 1 → amount = 0 ∨ 60000 < amount → step = .error .outOfRange) ∧
    (byte 0 = 2 → 1 < byte 1 → step = .error .outOfRange) ∧
    (byte 0 = 3 → i ≤ byte 1 → step = .error .badTarget) ∧
    (byte 0 = 3 → byte 1 < i → byte 2 = 0 ∨ 15 < byte 2 → step = .error .outOfRange) ∧
    (byte 0 = 3 → byte 1 < i → 1 ≤ byte 2 → byte 2 ≤ 15 → step = .ok (.loop (Fin.ofNat 32 (byte 1)) (byte 2))) ∧
    (byte 0 = 4 → byte 1 = 0 → step = .error .outOfRange) ∧
    (byte 0 = 4 → byte 1 ≠ 0 → step = .ok (.mark (BitVec.ofNat 8 (byte 1)))) ∧
    (byte 0 = 5 → byte 1 = 0 ∨ half 2 = 0 → step = .error .outOfRange) ∧
    (byte 0 = 5 → byte 1 ≠ 0 → half 2 ≠ 0 → step = .ok (.await (BitVec.ofNat 8 (byte 1)) (half 2))) ∧
    (byte 0 = 6 → step = .ok .finish)) ∧
  (∀ (table : List Byte) (p n i : Nat),
    let step := stepAt table (256 * p + 8 * i) i
    stepsFrom table p 0 i = .ok [] ∧
    (∀ f, step = .error f → stepsFrom table p (n + 1) i = .error (i, f)) ∧
    (step = .ok .finish → stepsFrom table p (n + 1) i = .ok (List.replicate (n + 1) .finish)) ∧
    (∀ x, step = .ok x → x ≠ .finish →
      (∀ e, stepsFrom table p n (i + 1) = .error e → stepsFrom table p (n + 1) i = .error e) ∧
      (∀ steps, stepsFrom table p n (i + 1) = .ok steps → stepsFrom table p (n + 1) i = .ok (x :: steps)))) ∧
  (∀ (table : List Byte) (mask : BitVec 16) (p : ProgramId) (rest : List ProgramId),
    let checked := stepsFrom table p.val 32 0
    programsOf table mask [] = .ok [] ∧
    (mask.getLsbD p.val = false → programsOf table mask (p :: rest) = programsOf table mask rest) ∧
    (∀ i f, mask.getLsbD p.val = true → checked = .error (i, f) →
      programsOf table mask (p :: rest) = .error (p.val, i, f)) ∧
    (∀ steps, mask.getLsbD p.val = true → checked = .ok steps →
      (∀ e, programsOf table mask rest = .error e → programsOf table mask (p :: rest) = .error e) ∧
      (∀ programs, programsOf table mask rest = .ok programs →
        programsOf table mask (p :: rest) = .ok ((p, programOfSteps steps) :: programs)))) ∧
  (∀ (steps : List Step) (i : StepId), (programOfSteps steps)[i] = steps.getD i.val .finish) ∧
  (∀ (programs : List (ProgramId × Program)) (s : State),
    let t := loadAll programs s
    t = { s with programs := t.programs } ∧
    (∀ p, (∀ x ∈ programs, x.1 ≠ p) → t.programs[p] = s.programs[p]) ∧
    ((programs.map Prod.fst).Nodup → ∀ x ∈ programs, t.programs[x.1] = some x.2))

/-- OPEN TRACK, CLOSE TRACK NOW and CLOSE TRACK AFTER at a slot that is taken in WATCHING (R1, R2, R186, R187); a
closure NOW finishes a parked order on the track, ends the passages and finishes its own order, in this order by the
model's choice (log 52); and the passages of a closed track, ended with TRACK CLOSED in the order of their contexts
(R40, log 34): one in MEASURING or RUNNING enters FINISHING, one in FINISHING has CLEARED or STALLED replaced, each
with its requests removed and its runs aborted, in this order (the model's choice, log 45); one that was abandoned or
closed before is left as it is. -/
def Obligations.TrackOrders : Prop :=
  (∀ (m : Moment) (slot : SlotId) (t : TrackId) (s : State),
    let b := taken m s
    let k := slotTaken slot b
    let u := b.tracks[t]
    let id : Byte := BitVec.ofNat 8 t.val
    let ends (res : OrderResult) (k : State) : Host.Outcome State Fault Refusal :=
      .next (orderEnded (writeFinish slot res k))
    let held := ∃ j : ContextId, ∃ p, b.passages[j] = some p ∧ p.track = t
    let closing := modTrack t (fun u => { u with state := .closing, settleTimer := none, ignoreTimer := none }) k
    slotFree slot b = true → b.device = .watching →
    (∀ track : Byte, 4 ≤ track.toNat →
      exec (.openTrack m slot track) s = ends (.refused .badArgument []) k ∧
      exec (.closeTrackNow m slot track) s = ends (.refused .badArgument []) k ∧
      exec (.closeTrackAfter m slot track) s = ends (.refused .badArgument []) k) ∧
    (u.state ≠ .closed → exec (.openTrack m slot id) s = ends (.refused .already []) k) ∧
    (u.state = .closed → u.plan.enabled = false →
      exec (.openTrack m slot id) s = ends (.refused .badArgument []) k) ∧
    (u.state = .closed → u.plan.enabled = true → u.plan.settleMs ≠ 0 →
      exec (.openTrack m slot id) s = ends (.ok []) (modTrack t (fun u => { u with
        state := .settling, settleTimer := some (plusUs b.gantryTime (u.plan.settleMs * 1000)) }) k)) ∧
    (u.state = .closed → u.plan.enabled = true → u.plan.settleMs = 0 →
      exec (.openTrack m slot id) s = ends (.ok []) (modTrack t (fun u => { u.drop with
        state := .watching
        curtain := { Curtain.reset with silenceTimer := some (plusUs b.gantryTime 10000) } }) k)) ∧
    (u.state = .closed → exec (.closeTrackNow m slot id) s = ends (.refused .already []) k) ∧
    (u.state ≠ .closed → exec (.closeTrackNow m slot id) s =
      ends (.ok [0]) (endTrackPassages t (finishParked (.track t) (.ok [0]) (modTrack t TrackUnit.drop k)))) ∧
    (u.state = .closed ∨ u.state = .closing →
      exec (.closeTrackAfter m slot id) s = ends (.refused .already []) k) ∧
    (u.state ≠ .closed → u.state ≠ .closing → ¬held → exec (.closeTrackAfter m slot id) s =
      ends (.ok [1]) (finishParked (.track t) (.ok [1]) (modTrack t TrackUnit.drop closing))) ∧
    (u.state ≠ .closed → u.state ≠ .closing → held → 4 ≤ b.engine.parked.length →
      exec (.closeTrackAfter m slot id) s = ends (.refused .parkFull []) k) ∧
    (u.state ≠ .closed → u.state ≠ .closing → held → b.engine.parked.length < 4 →
      exec (.closeTrackAfter m slot id) s = .next (orderEnded { closing with
        engine := { closing.engine with parked := b.engine.parked ++ [{ slot := slot, waits := .track t }] } }))) ∧
  (∀ (t : TrackId) (s : State),
    endTrackPassages t s = ([0, 1, 2, 3, 4, 5, 6, 7] : List ContextId).foldl (fun s k => endPassageAt t k s) s ∧
    ∀ k : ContextId,
      let after (p : Passage) (s : State) : State := completeIfDone p.id (abortPassage p.id (removal p.id .abandoned s))
      (s.passages[k] = none → endPassageAt t k s = s) ∧
      (∀ p, s.passages[k] = some p →
        let open_ := { s with passages := s.passages.set k
                                (some { p with state := .finishing, close := some .trackClosed, tail := none }) }
        let shut := { s with passages := s.passages.set k (some { p with close := some .trackClosed }) }
        (p.track ≠ t → endPassageAt t k s = s) ∧
        (p.track = t → p.state ≠ .finishing → endPassageAt t k s = after p (clearServed t p.id open_)) ∧
        (p.track = t → p.state = .finishing → p.close = some .cleared ∨ p.close = some .stalled →
          endPassageAt t k s = after p shut) ∧
        (p.track = t → p.state = .finishing → p.close = some .abandoned ∨ p.close = some .trackClosed →
          endPassageAt t k s = s)))

/-- ABANDON PASSAGE at a slot that is taken in WATCHING or STOPPING (R39, R188). The removal is
taken before the aborts (the model's choice, log 45), the outstanding count in the result after both (log 33). -/
def Obligations.AbandonPassage : Prop :=
  ∀ (m : Moment) (slot : SlotId) (id : PassageId) (s : State),
    let b := taken m s
    let k := slotTaken slot b
    let ends (res : OrderResult) (k : State) : Host.Outcome State Fault Refusal :=
      .next (orderEnded (writeFinish slot res k))
    slotFree slot b = true → b.device = .watching ∨ b.device = .stopping →
    exec (.abandonPassage m slot 0) s = ends (.refused .badArgument []) k ∧
    (id ≠ 0 → contextOf id b = none → exec (.abandonPassage m slot id) s = ends (.refused .noSuchPassage []) k) ∧
    (∀ (c : ContextId) (p : Passage), id ≠ 0 → contextOf id b = some c → b.passages[c] = some p →
      let open_ := { k with passages := k.passages.set c
                              (some { p with state := .finishing, close := some .abandoned, tail := none }) }
      let shut := { k with passages := k.passages.set c (some { p with close := some .abandoned }) }
      let after (k : State) : State := completeIfDone p.id (abortPassage p.id (removal p.id .abandoned k))
      let result (k : State) : OrderResult := .ok [byteOf p.track.val,
        byteOf (match passageOf id k with | some q => q.outstanding | none => 0)]
      (p.state ≠ .finishing →
        let t := after (clearServed p.track p.id open_)
        exec (.abandonPassage m slot id) s = ends (result t) t) ∧
      (p.state = .finishing → p.close = some .cleared ∨ p.close = some .stalled →
        let t := after shut
        exec (.abandonPassage m slot id) s = ends (result t) t) ∧
      (p.state = .finishing → p.close = some .abandoned ∨ p.close = some .trackClosed →
        exec (.abandonPassage m slot id) s = ends (.refused .already []) k))

/-- TEST SHOT at a slot that is taken in WATCHING: the checks of R64 and R190 in order, then the order is parked and
the test request placed, its resting station woken, and it is offered where it is its station's earliest (R58). -/
def Obligations.TestShot : Prop :=
  (∀ (m : Moment) (slot : SlotId) (st : StationId) (p : ProgramId) (speed : Word) (s : State),
    let b := taken m s
    let k := slotTaken slot b
    let run := exec (.testShot m slot (BitVec.ofNat 8 st.val) (BitVec.ofNat 8 p.val) speed) s
    let ends (res : OrderResult) : Host.Outcome State Fault Refusal := .next (orderEnded (writeFinish slot res k))
    let good := 1389 ≤ speed.toNat ∧ speed.toNat ≤ 111111
    let offline := b.stations[st].state = .offline
    let busy := b.stations[st].state = .running ∨ b.stations[st].state = .ending ∨
      ∃ r ∈ b.schedule, r.pid = 0 ∧ r.station = st
    let parked := { k with
      engine := { k.engine with parked := b.engine.parked ++ [{ slot := slot, waits := .station st }] } }
    let r : Request :=
      { pid := 0, sighting := 0, station := st, program := p, due := b.gantryTime
        tolerance := (match b.stations[st].plan with | some plan => plan.tolerance | none => 0)
        testSpeed := some speed.toNat }
    slotFree slot b = true → b.device = .watching →
    (∀ x y : Byte, 8 ≤ x.toNat ∨ 16 ≤ y.toNat →
      exec (.testShot m slot x y speed) s = ends (.refused .badArgument [])) ∧
    (¬good → run = ends (.refused .badArgument [])) ∧
    (good → offline → run = ends (.refused .wrongState [])) ∧
    (good → ¬offline → busy → run = ends (.refused .stationBusy [])) ∧
    (good → ¬offline → ¬busy → 4 ≤ b.engine.parked.length → run = ends (.refused .parkFull [])) ∧
    (good → ¬offline → ¬busy → b.engine.parked.length < 4 → b.schedule.length < 48 →
      let placed := placeRequest r parked
      let t := if b.stations[st].state = .resting then stationWakes st (enterWaking st placed) else placed
      run = .next (orderEnded (drain
        (if reached r.due t.gantryTime && t.schedule.find? (fun o => o.station == st) == some r then [.offer st] else [])
        t))) ∧
    (good → ¬offline → ¬busy → b.engine.parked.length < 4 → 48 ≤ b.schedule.length →
      run = .next (orderEnded (declareMiss false .notPlanned r (raise
        { code := .scheduleFull, track := some (requestTrack r parked), station := some st, unit := none
          pid := some 0, detail := some 48 } parked))))) ∧
  (∀ (st : StationId) (s : State),
    let x := s.stations[st]
    enterWaking st s = { s with
      stations := s.stations.set st { x with
        state := .waking, restTimer := none
        wakeTimer := some (plusUs s.gantryTime ((match x.plan with | some p => p.wakeMs | none => 0) * 1000)) }
      outputs := s.outputs ++ [.wake st] })

/-- GIVE CHAIN, DRAIN and SNAPSHOT at a slot that is taken (R147, R151, R169, R189, R191, R193). A GIVE CHAIN that
abandons a read notes it, so that its result is discarded when it completes (log 7), and clears look pending (log 20).
The causes of a snapshot's placement are raised before its order is finished, by the model's choice (log 49). The four
parts of a snapshot record by the offsets of 11.9; the bits of a station's byte 1 are 0 where it holds no run
(log 42), and an exposure of a closed-out run that stays open beside a later one counts as open (log 22). -/
def Obligations.ChainDrainSnapshot : Prop :=
  (∀ (m : Moment) (slot : SlotId) (s : State),
    let b := taken m s
    let k := slotTaken slot b
    let ends (res : OrderResult) (k : State) : Host.Outcome State Fault Refusal :=
      .next (orderEnded (writeFinish slot res k))
    slotFree slot b = true →
    exec (.giveChain m slot 0) s = ends (.refused .badArgument []) k ∧
    (∀ head, head ≠ 0 →
      let condition := if b.mover.condition = .dry then ChainCondition.ok else b.mover.condition
      (b.mover.phase = .writing ∨ b.mover.phase = .marking →
        exec (.giveChain m slot head) s = ends (.ok []) { k with mover := { b.mover with
          pendingHead := some head, withdrawn := [], condition := condition } }) ∧
      (b.mover.phase = .taking ∨ b.mover.phase = .following ∨ b.mover.phase = .probing →
        exec (.giveChain m slot head) s = ends (.ok []) (tryTake { k with mover := { b.mover with
          cursor := .at head, phase := .idle, lookPending := false, withdrawn := [], condition := condition
          abandoned := b.mover.abandoned ++ [b.mover.phase] } })) ∧
      (b.mover.phase = .idle →
        exec (.giveChain m slot head) s = ends (.ok []) (tryTake { k with mover := { b.mover with
          cursor := .at head, withdrawn := [], condition := condition } }))) ∧
    (let parked := ∃ q ∈ b.engine.parked, q.waits = .drain
     let met := drained b = true
     (parked → exec (.drain m slot) s = ends (.refused .already []) k) ∧
     (∀ a, ¬parked → b.mover.drainContext = some a → exec (.drain m slot) s =
       ends (.refused .failed (le 8 a.toNat)) { k with mover := { b.mover with drainContext := none } }) ∧
     (¬parked → b.mover.drainContext = none → met → exec (.drain m slot) s = ends (.ok []) k) ∧
     (¬parked → b.mover.drainContext = none → ¬met → 4 ≤ b.engine.parked.length →
       exec (.drain m slot) s = ends (.refused .parkFull []) k) ∧
     (¬parked → b.mover.drainContext = none → ¬met → b.engine.parked.length < 4 →
       exec (.drain m slot) s = .next (orderEnded { k with
         engine := { k.engine with parked := b.engine.parked ++ [{ slot := slot, waits := .drain }] } }))) ∧
    (let q := handRecord (snapshotOf k) k
     exec (.snapshot m slot) s = ends (.ok (match q.2 with
       | .written row => [0, 0] ++ le 2 row.val
       | .held => [1]
       | .lost => [2]
       | .discarded => [])) q.1)) ∧
  (∀ s : State, ∃ p1 p2 p3 p4, snapshotOf s = .snapshot p1 p2 p3 p4 ∧
    (Record.snapshot p1 p2 p3 p4).bodies = [p1, p2, p3, p4] ∧ (Record.snapshot p1 p2 p3 p4).kindCode = 4 ∧
    (let at_ := rowField p1
     let latch (bit : Bool) (weight : Nat) : Nat := if bit then weight else 0
     at_ 8 6 = le 6 s.gantryTime.toNat ∧ at_ 14 1 = [byteOf s.device.code] ∧ at_ 15 1 = [byteOf s.failReason.code] ∧
     at_ 16 1 = [byteOf (latch s.latches.orders 2 + latch s.latches.dry 4 + latch s.latches.fault 8 +
       latch s.latches.failed 16)] ∧
     at_ 17 1 = [byteOf s.engine.parked.length] ∧
     (∀ t : TrackId, at_ (18 + t.val) 1 = [byteOf ((match s.tracks[t].state with
       | .closed => 0 | .settling => 1 | .watching => 2 | .ignoring => 3 | .closing => 4) +
       latch s.tracks[t].curtain.blind 128)]) ∧
     at_ 22 2 = le 2 s.writer.rowCursor.val ∧ at_ 24 1 = [byteOf s.writer.held.length] ∧
     at_ 25 1 = [byteOf (s.writer.held.filter Record.isNote).length] ∧ at_ 26 1 = [byteOf s.writer.notices.length] ∧
     at_ 27 1 = [byteOf (latch s.writer.overflow 1)] ∧ at_ 28 2 = le 2 s.writer.lost ∧
     at_ 32 4 = le 4 s.writer.sequence.toNat ∧ at_ 36 1 = [byteOf s.mover.condition.code] ∧
     at_ 37 1 = [match s.mover.hold with | none => 0 | some .cardCheck => 20 | some .cardEmpty => 21 | some .cardWrite => 22] ∧
     at_ 38 1 = [match s.mover.cursor with | .absent => 0 | .at _ => 1 | .after _ => 2] ∧
     at_ 39 1 = [match s.mover.phase with
       | .idle => 0 | .taking => 1 | .writing => 2 | .marking => 3 | .following => 4 | .probing => 5] ∧
     at_ 40 8 = (match s.mover.cursor with
       | .absent => le 8 0xFFFFFFFFFFFFFFFF | .at a => le 8 a.toNat | .after a => le 8 a.toNat) ∧
     at_ 48 8 = (match s.mover.current with | none => le 8 0xFFFFFFFFFFFFFFFF | some c => le 8 c.address.toNat) ∧
     at_ 56 1 = [byteOf s.mover.queue.length] ∧ at_ 57 1 = [byteOf s.mover.withdrawn.length] ∧
     at_ 64 8 = (match s.mover.drainContext with | none => le 8 0xFFFFFFFFFFFFFFFF | some a => le 8 a.toNat)) ∧
    (let at_ := rowField p2
     at_ 8 2 = le 2 s.nextPassageId.toNat ∧
     ∀ k : ContextId,
       (s.passages[k] = none → at_ (16 + 10 * k.val) 10 = List.replicate 10 0) ∧
       ∀ p, s.passages[k] = some p → at_ (16 + 10 * k.val) 10 =
         [match p.state with | .measuring => 1 | .running => 2 | .finishing => 3,
          byteOf (p.track.val + if p.dir = .up then 0 else 16)] ++ le 2 p.id.toNat ++
         le 4 (p.estimate.getD 0xFFFFFFFF) ++
         [byteOf ((p.sightings.filter fun x => x.number.isSome).length +
            16 * (p.sightings.filter fun x => x.state == .accounted).length), byteOf p.outstanding]) ∧
    (let at_ := rowField p3
     at_ 8 2 = le 2 (allPrograms.map fun p => if s.programs[p].isSome then 2 ^ p.val else 0).sum ∧
     ∀ st : StationId,
       let x := s.stations[st]
       let state : Byte := match x.state with
         | .offline => 0 | .resting => 1 | .waking => 2 | .idle => 3 | .running => 4 | .ending => 5
       (x.run = none →
         at_ (16 + 10 * st.val) 10 = [state] ++ List.replicate 8 0 ++ [byteOf x.marks.length]) ∧
       ∀ r, x.run = some r → at_ (16 + 10 * st.val) 10 =
         [state, byteOf ((match r.outcome with | .done => 0 | .abandoned => 2 | .faulted => 3) +
            (if r.unsynced then 4 else 0) + 128)] ++ le 2 r.pid.toNat ++
         [byteOf r.sighting, byteOf r.program.val, byteOf r.index.val,
          match r.wait with | .none => 0 | .flash => 1 | .exposure _ => 2 | .pause _ => 3 | .await _ => 4,
          byteOf r.exposures.length, byteOf x.marks.length]) ∧
    (let at_ := rowField p4
     let mask (sts : List StationId) : Nat := (sts.map fun x => 2 ^ x.val).sum
     at_ 8 1 = [byteOf s.schedule.length] ∧ at_ 9 1 = [byteOf (s.schedule.filter fun r => r.pid == 0).length] ∧
     at_ 10 1 = [byteOf (s.schedule.filter fun r => reached r.due s.gantryTime).length] ∧
     at_ 12 6 = (match s.schedule with | [] => le 6 0xFFFFFFFFFFFF | r :: _ => le 6 r.due.toNat) ∧
     (∀ st : StationId,
       at_ (18 + st.val) 1 = [byteOf (s.schedule.filter fun r => r.station == st).length] ∧
       at_ (42 + 3 * st.val) 3 = [s.ports[st].nextTag,
         byteOf (s.ports[st].awaited.length + 16 * (s.ports[st].awaited.filter fun a => a.phase != .opened).length),
         byteOf s.ports[st].silent]) ∧
     (∀ u : UnitId, at_ (26 + u.val) 1 = [byteOf ((match s.units[u].state with
       | .out => 0 | .resting => 1 | .charging => 2 | .ready => 3 | .firing => 4) +
       16 * (match s.units[u].firing with | none => 7 | some st => st.val))]) ∧
     at_ 32 1 = [byteOf s.waiting.length] ∧ at_ 33 1 = [byteOf (mask (s.waiting.map FlashRequest.station))] ∧
     at_ 34 1 = [byteOf (mask (allStations.filter fun st =>
       s.openExposures[st].isSome || s.lingering.any fun x => x.station == st))] ∧
     at_ 36 6 = (match s.waiting with | [] => le 6 0xFFFFFFFFFFFF | q :: _ => le 6 q.deadline.toNat)))

/-- SET REST at a slot that is taken in READY or WATCHING (R76, R194): each named station in station order, the order
DONE when every result is DONE or ALREADY, else PARTIAL; a station not named is passed over; and what REST and WAKE do
at one station. That the result bytes of an order refused for its mask are all 0 is the model's choice (log 41). -/
def Obligations.SetRest : Prop :=
  (∀ (m : Moment) (slot : SlotId) (mask : Byte) (s : State),
    let b := taken m s
    let k := slotTaken slot b
    let ends (res : OrderResult) (k : State) : Host.Outcome State Fault Refusal :=
      .next (orderEnded (writeFinish slot res k))
    let result (q : State × List (Option RestResult)) : OrderResult :=
      let bytes := q.2.map fun r => match r with
        | none => (0xFF : Byte) | some .done => 0 | some .already => 1 | some .busy => 2 | some .offline => 3
      if q.2.all fun r => r != some .busy && r != some .offline then .ok bytes else .refused .partialResult bytes
    slotFree slot b = true → b.device = .ready ∨ b.device = .watching →
    exec (.setRestRest m slot 0) s = ends (.refused .badArgument []) k ∧
    exec (.setRestWake m slot 0) s = ends (.refused .badArgument []) k ∧
    (mask ≠ 0 →
      (let q := restEach restStation mask allStations k
       exec (.setRestRest m slot mask) s = ends (result q) q.1) ∧
      (let q := restEach wakeStation mask allStations k
       exec (.setRestWake m slot mask) s = ends (result q) q.1))) ∧
  (∀ (st : StationId) (s : State),
    let x := s.stations[st]
    let rested := stationRests st { s with
      stations := s.stations.set st { x with state := .resting, restTimer := none, wakeTimer := none }
      outputs := s.outputs ++ [.standby st] }
    let woken := stationWakes st { s with
      stations := s.stations.set st { x with
        state := .waking, restTimer := none
        wakeTimer := some (plusUs s.gantryTime ((match x.plan with | some p => p.wakeMs | none => 0) * 1000)) }
      outputs := s.outputs ++ [.wake st] }
    let again := { s with stations := s.stations.set st { x with
      restTimer := if x.restTimer = none then none else match x.plan with
        | none => none
        | some p => if p.restS = 0 then none else some (plusUs s.gantryTime (p.restS * 1000000)) } }
    (x.state = .offline → restStation st s = (s, .offline) ∧ wakeStation st s = (s, .offline)) ∧
    (x.state = .resting → restStation st s = (s, .already) ∧ wakeStation st s = (woken, .done)) ∧
    (x.state = .waking → restStation st s = (rested, .done) ∧ wakeStation st s = (s, .already)) ∧
    (x.state = .idle → restStation st s = (rested, .done) ∧ wakeStation st s = (again, .already)) ∧
    (x.state = .running ∨ x.state = .ending → restStation st s = (s, .busy) ∧ wakeStation st s = (s, .already))) ∧
  (∀ (act : StationId → State → State × RestResult) (mask : Byte) (st : StationId) (rest : List StationId) (s : State),
    allStations = [0, 1, 2, 3, 4, 5, 6, 7] ∧ restEach act mask [] s = (s, []) ∧
    (mask.getLsbD st.val = true → restEach act mask (st :: rest) s =
      ((restEach act mask rest (act st s).1).1, some (act st s).2 :: (restEach act mask rest (act st s).1).2)) ∧
    (mask.getLsbD st.val = false → restEach act mask (st :: rest) s =
      ((restEach act mask rest s).1, none :: (restEach act mask rest s).2)))

/-- The completions of the reads that orders wait on (R69, R183, R184, R185, R192): a bus error refuses with
READ_ERROR; a device no longer DORMANT or READY refuses a plan or a program table with WRONG_STATE; then the checks of
each order; then the scan goes on after the slot. A completion without its read changes nothing (log 7). A list of
another length than the order counts is no completion of its read (R192, log 7). That the result bytes of a WITHDRAW
CARDS refused for its read or for an address 0 are all 0 is the model's choice (log 41). The failure codes of a
program step (11.3). WITHDRAW CARDS takes an address (R148): BUSY for the current card or the card being marked,
ALREADY on the list, FULL at 16 addresses, else ADDED at the end. The first field out of range of a plan is reported
(R183, R216); what an accepted plan puts into the state (R184, by R20, R71, R98, R99, R132, R207), from the fields at
the offsets of 11.10; the order of the standby and wake commands among the outputs (log 47), and that the
open-exposure register is left as it is (log 55), are the model's choices. -/
def Obligations.OrderReads : Prop :=
  (∀ (m : Moment) (slot : SlotId) (a : Addr) (s : State),
    let b := taken m s
    let k := { b with engine := { b.engine with executing := none } }
    let ends (res : OrderResult) (k : State) : Host.Outcome State Fault Refusal :=
      let t := writeFinish slot res k
      .next (conclude (continueScan slot (if t.device = .failed then t else settle t)))
    let loadable := b.device = .dormant ∨ b.device = .ready
    b.device ≠ .failed →
    (b.engine.executing = some (slot, .plan a) →
      exec (.planReadCompletion m none) s = ends (.refused .readError []) k ∧
      ∀ plan : List Byte,
        let run := exec (.planReadCompletion m (some plan)) s
        let summed := ((List.range 436).map fun i => leAt plan (2 * i) 2).sum % 65536 = 0
        (¬loadable → run = ends (.refused .wrongState []) k) ∧
        (loadable → ¬summed → run = ends (.refused .planCheck []) k) ∧
        (∀ offset, loadable → summed → firstBadField plan = some offset →
          run = ends (.refused .badArgument (le 4 offset)) k) ∧
        (loadable → summed → firstBadField plan = none → run = ends (.ok []) (acceptPlan plan k))) ∧
    (∀ mask, b.engine.executing = some (slot, .programs mask a) →
      exec (.programTableReadCompletion m none) s = ends (.refused .readError []) k ∧
      ∀ table : List Byte,
        let run := exec (.programTableReadCompletion m (some table)) s
        (¬loadable → run = ends (.refused .wrongState []) k) ∧
        (∀ p i f, loadable → programsOf table mask allPrograms = .error (p, i, f) →
          run = ends (.refused .badArgument [byteOf p, byteOf i, byteOf f.code]) k) ∧
        (∀ programs, loadable → programsOf table mask allPrograms = .ok programs →
          run = ends (.ok (le 2 mask.toNat)) (loadAll programs k))) ∧
    (∀ n, b.engine.executing = some (slot, .addresses n a) →
      exec (.addressListReadCompletion m none) s = ends (.refused .readError []) k ∧
      ∀ list : List Addr,
        let run := exec (.addressListReadCompletion m (some list)) s
        let q := withdrawAll list b.mover
        let codes := (q.2.map fun r => match r with
          | .added => (0 : Byte) | .already => 1 | .busy => 2 | .full => 3) ++ List.replicate (16 - q.2.length) 0xFF
        (list.length ≠ n → run = .next (conclude b)) ∧
        (list.length = n → 0 ∈ list → run = ends (.refused .badArgument []) k) ∧
        (list.length = n → 0 ∉ list → (∀ r ∈ q.2, r = .added ∨ r = .already) →
          run = ends (.ok codes) { k with mover := q.1 }) ∧
        (list.length = n → 0 ∉ list → (∃ r ∈ q.2, r = .busy ∨ r = .full) →
          run = ends (.refused .partialResult codes) { k with mover := q.1 })) ∧
    (b.engine.executing = none → ∀ plan table list,
      exec (.planReadCompletion m plan) s = .next (conclude b) ∧
      exec (.programTableReadCompletion m table) s = .next (conclude b) ∧
      exec (.addressListReadCompletion m list) s = .next (conclude b))) ∧
  (∀ (a : Addr) (rest : List Addr) (m : TileMover),
    let busy := (∃ c ∈ m.current, c.address = a) ∨ ∃ c ∈ m.marked, c.address = a
    let keeps (r : EntryResult) : Prop :=
      withdrawAll (a :: rest) m = ((withdrawAll rest m).1, r :: (withdrawAll rest m).2)
    (busy → keeps .busy) ∧ (¬busy → a ∈ m.withdrawn → keeps .already) ∧
    (¬busy → a ∉ m.withdrawn → 16 ≤ m.withdrawn.length → keeps .full) ∧
    (¬busy → a ∉ m.withdrawn → m.withdrawn.length < 16 →
      let n := { m with withdrawn := m.withdrawn ++ [a] }
      withdrawAll (a :: rest) m = ((withdrawAll rest n).1, .added :: (withdrawAll rest n).2))) ∧
  (∀ plan : List Byte,
    (firstBadField plan = none ↔ ∀ o, ¬fieldBad plan o) ∧
    (∀ o, firstBadField plan = some o ↔ fieldBad plan o ∧ ∀ q, fieldBad plan q → o ≤ q)) ∧
  (∀ (plan : List Byte) (s : State),
    let t := acceptPlan plan s
    let rests (st : StationId) : Prop := (stationPlanOf plan st).restS ≠ 0
    t = { s with
      tracks := t.tracks, stations := t.stations, ports := t.ports, units := t.units, headMin := leAt plan 4 2
      headMax := leAt plan 6 2, routingLimit := leAt plan 2 1, routing := t.routing, device := .ready
      outputs := s.outputs ++ allStations.map fun st =>
        if (stationPlanOf plan st).restS = 0 then .wake st else .standby st } ∧
    (∀ i : TrackId, t.tracks[i] = { s.tracks[i].drop with plan := trackPlanOf plan i }) ∧
    (∀ st : StationId,
      t.ports[st] = { s.ports[st] with configured := true, silent := 0 } ∧
      (rests st → t.stations[st] =
        { plan := some (stationPlanOf plan st), state := .resting, restTimer := none, wakeTimer := none, run := none
          marks := [] }) ∧
      (¬rests st → t.stations[st] =
        { plan := some (stationPlanOf plan st), state := .waking, restTimer := none
          wakeTimer := some (plusUs s.gantryTime ((stationPlanOf plan st).wakeMs * 1000)), run := none, marks := [] })) ∧
    (∀ u : UnitId,
      let x := t.units[u]
      let lit : BitVec 4 := BitVec.ofNat 4 (leAt plan (0x2D0 + 4 * u.val) 1)
      let limit := leAt plan (0x2D0 + 4 * u.val + 2) 2
      let uses (st : StationId) : Prop := (stationPlanOf plan st).strobeMask.getLsbD u.val = true
      x.litTracks = lit ∧ x.rechargeMs = limit ∧ x.firing = none ∧ x.pulseEnd = none ∧ x.fireLine = false ∧
      (∀ st : StationId, x.users.getLsbD st.val = true ↔ uses st) ∧
      (∀ i : TrackId, x.reach.getLsbD i.val = true ↔
        ∃ j : TrackId, lit.getLsbD j.val = true ∧ (j = i ∨ j.val + 1 = i.val ∨ i.val + 1 = j.val)) ∧
      ((∃ st, uses st ∧ ¬rests st) → x.state = .charging ∧ x.supply = true ∧
        x.rechargeTimer = some (plusUs s.gantryTime (limit * 1000))) ∧
      ((∀ st, uses st → rests st) → x.state = .resting ∧ x.supply = false ∧ x.rechargeTimer = none)) ∧
    t.routing.length = min (leAt plan 2 1) 64 ∧
    (∀ c : Nat, c < 64 → c < leAt plan 2 1 → t.routing[c]? =
      some { note := leAt plan (0x2E8 + 2 * c) 1 == 1, signal := leAt plan (0x2E8 + 2 * c + 1) 1 == 1 })) ∧
  (∀ (plan : List Byte) (i : TrackId),
    let at_ (n length : Nat) : Nat := leAt plan (0x010 + 16 * i.val + n) length
    trackPlanOf plan i =
      { enabled := at_ 0 1 == 1, roofLine := at_ 1 1, contact := at_ 2 1, settleScans := at_ 3 1, uSpacing := at_ 4 2
        dSpacing := at_ 6 2, bounce := if at_ 8 2 = 0 then 200 else at_ 8 2, settleMs := at_ 10 2, stuckS := at_ 12 1
        silenceS := at_ 13 1, tail := at_ 14 2 }) ∧
  (∀ (plan : List Byte) (st : StationId),
    let at_ (n length : Nat) : Nat := leAt plan (0x050 + 80 * st.val + n) length
    let p := stationPlanOf plan st
    let program (n : Nat) : Option Nat := if n < 16 then some n else none
    p.track.val = at_ 0 1 % 4 ∧ (p.servesUp = true ↔ at_ 1 1 % 2 = 1) ∧ (p.servesDown = true ↔ at_ 1 1 / 2 % 2 = 1) ∧
    p.programUp.map Fin.val = program (at_ 2 1) ∧ p.programDown.map Fin.val = program (at_ 3 1) ∧
    p.offset = (if at_ 4 4 < 2 ^ 31 then (at_ 4 4 : Int) else (at_ 4 4 : Int) - 2 ^ 32) ∧ p.lead = at_ 8 2 ∧
    p.tolerance = at_ 10 2 ∧ p.strobeMask = BitVec.ofNat 6 (at_ 12 1) ∧ p.sensitive = (at_ 13 1 == 1) ∧
    p.cropLeft = at_ 14 2 ∧ p.cropWidth = at_ 16 2 ∧ p.cropHeight = at_ 18 2 ∧ p.testRow = at_ 20 2 ∧
    p.restS = at_ 22 2 ∧ p.wakeMs = at_ 24 2 ∧ p.frameTimeout = (if at_ 26 1 = 0 then 50 else at_ 26 1) ∧
    p.heights.length = 24 ∧ ∀ beam, beam < 24 → p.heights[beam]? = some (at_ (32 + 2 * beam) 2)) ∧
  (([.unknownStep, .badTarget, .outOfRange] : List StepFailure).map StepFailure.code = [1, 2, 3])
end

