-- ==== Sys2Proof/Laws/Events.lean ====
section
/-! SUPPORT. What an event and an order come to: the effect of a command at the state in which it is taken, the take of a
slot, the lookups the orders make, times, the due timer, the mover's reads and failed cards, the end of an exposure. -/

namespace Sys2Proof.Machine

open Sys2Proof

/-! ## Events -/

theorem event_of_live {m : Moment} {f : State → State} {s : State} (h : (taken m s).device ≠ .failed) :
    event m f s = .next (conclude (f (taken m s))) := congrArg _ (if_neg h)

theorem event_of_failed {m : Moment} {f : State → State} {s : State} (h : (taken m s).device = .failed) :
    event m f s = .next (taken m s) := congrArg _ (if_pos h)

theorem plainEvent_of_live {m : Moment} {f : State → State} {s : State} (h : (taken m s).device ≠ .failed) :
    plainEvent m f s = .next (f (taken m s)) := congrArg _ (if_neg h)

theorem plainEvent_of_failed {m : Moment} {f : State → State} {s : State} (h : (taken m s).device = .failed) :
    plainEvent m f s = .next (taken m s) := congrArg _ (if_pos h)

theorem settle_of_calm {s : State} (h : calm s = true) : settle s = s := by
  simp only [calm, Bool.and_eq_true, bne_iff_ne, Bool.not_eq_true'] at h
  have hd : settleDrain s = s := if_neg (by simp [h.2])
  unfold settle
  rw [hd]
  exact if_neg fun hc => h.1.2 hc.1

theorem conclude_of_calm {s : State} (h : calm s = true) : conclude s = s := by
  have hd : s.device ≠ .failed := by
    simp only [calm, Bool.and_eq_true, bne_iff_ne] at h; exact h.1.1
  unfold conclude
  rw [if_neg hd, settle_of_calm h]; exact if_neg hd

/-! ## Updates -/

theorem modTrack_congr (t : TrackId) {f g : TrackUnit → TrackUnit} {s : State} (h : f s.tracks[t] = g s.tracks[t]) :
    modTrack t f s = modTrack t g s := by unfold modTrack; rw [h]

theorem modCurtain_congr (t : TrackId) {f g : Curtain → Curtain} {s : State}
    (h : f s.tracks[t].curtain = g s.tracks[t].curtain) : modCurtain t f s = modCurtain t g s :=
  modTrack_congr t (by rw [h])

theorem modStation_congr (st : StationId) {f g : Station → Station} {s : State}
    (h : f s.stations[st] = g s.stations[st]) : modStation st f s = modStation st g s := by unfold modStation; rw [h]

theorem modUnit_congr (u : UnitId) {f g : StrobeUnit → StrobeUnit} {s : State} (h : f s.units[u] = g s.units[u]) :
    modUnit u f s = modUnit u g s := by unfold modUnit; rw [h]

theorem modPort_congr (st : StationId) {f g : Port → Port} {s : State} (h : f s.ports[st] = g s.ports[st]) :
    modPort st f s = modPort st g s := by unfold modPort; rw [h]

/-! ## The sets of like things -/

theorem mem_allTracks (t : TrackId) : t ∈ allTracks := by fin_cases t <;> decide
theorem mem_allStations (st : StationId) : st ∈ allStations := by fin_cases st <;> decide
theorem mem_allUnits (u : UnitId) : u ∈ allUnits := by fin_cases u <;> decide
theorem mem_allContexts (k : ContextId) : k ∈ allContexts := by fin_cases k <;> decide

theorem trackHasPassage_iff (t : TrackId) (s : State) :
    trackHasPassage t s = true ↔ ∃ j : ContextId, ∃ p, s.passages[j] = some p ∧ p.track = t := by
  simp only [trackHasPassage, List.any_eq_true]
  constructor
  · rintro ⟨j, -, h⟩
    cases hp : s.passages[j] with
    | none => simp [hp] at h
    | some p => simp [hp] at h; exact ⟨j, p, hp, h⟩
  · rintro ⟨j, p, hp, h⟩
    exact ⟨j, mem_allContexts j, by simp [hp, h]⟩

theorem parkFull_iff (s : State) : parkFull s = true ↔ 4 ≤ s.engine.parked.length := decide_eq_true_iff

theorem trackOfByte_ofNat (t : TrackId) : trackOfByte (BitVec.ofNat 8 t.val) = some t := by fin_cases t <;> rfl
theorem stationOfByte_ofNat (st : StationId) : stationOfByte (BitVec.ofNat 8 st.val) = some st := by fin_cases st <;> rfl
theorem programOfByte_ofNat (p : ProgramId) : programOfByte (BitVec.ofNat 8 p.val) = some p := by fin_cases p <;> rfl

theorem trackOfByte_large {b : Byte} (h : 4 ≤ b.toNat) : trackOfByte b = none := by simp [trackOfByte]; omega
theorem stationOfByte_large {b : Byte} (h : 8 ≤ b.toNat) : stationOfByte b = none := by simp [stationOfByte]; omega
theorem programOfByte_large {b : Byte} (h : 16 ≤ b.toNat) : programOfByte b = none := by simp [programOfByte]; omega

/-! ## Orders -/

theorem slotFree_iff {slot : SlotId} {s : State} :
    slotFree slot s = true ↔ s.device ≠ .failed ∧ s.base ≠ 0 ∧ s.engine.executing = none ∧ holdsSlot slot s = false ∧
      (slotAddr slot s).toNat ∉ s.writeErrors := by
  simp only [slotFree, Bool.and_eq_true, bne_iff_ne, Bool.not_eq_true', Option.isNone_iff_eq_none, and_assoc]
  simp

/-- The take of a slot that is free. -/
theorem takeOrder_of_slotFree {slot : SlotId} {o : Order} {s : State} (h : slotFree slot s = true) :
    takeOrder slot o (modEngine (fun e => { e with scan := some slot }) s) =
      (if (runOrder slot o (slotTaken slot s)).device = .failed then runOrder slot o (slotTaken slot s)
       else settle (runOrder slot o (slotTaken slot s))) := by
  have hm := (slotFree_iff.1 h).2.2.2.2
  have hw : (busWrite (slotAddr slot s) [stateTaken] (modEngine (fun e => { e with scan := some slot }) s)).2 = true := by
    simp [busWrite, Memory.writeUntilError, modEngine, hm]
  unfold takeOrder
  exact if_pos hw

/-- An order command at a free slot: the slot is taken, the order judged and carried out, the event ended. -/
theorem orderCommand_of_slotFree {m : Moment} {slot : SlotId} {o : Order} {s : State}
    (h : slotFree slot (taken m s) = true) :
    orderCommand m slot o s = .next (orderEnded (runOrder slot o (slotTaken slot (taken m s)))) := by
  obtain ⟨h1, h2, h3, h4, -⟩ := slotFree_iff.1 h
  unfold orderCommand
  have hn : ¬((taken m s).base = 0 ∨ (taken m s).engine.executing.isSome = true ∨ holdsSlot slot (taken m s) = true) := by
    rintro (h | h | h)
    · exact h2 h
    · rw [h3] at h; cases h
    · rw [h4] at h; cases h
  rw [event_of_live h1, if_neg hn, takeOrder_of_slotFree h]
  rfl

theorem slotTaken_device (slot : SlotId) (s : State) : (slotTaken slot s).device = s.device := rfl
theorem slotTaken_engine (slot : SlotId) (s : State) :
    (slotTaken slot s).engine = { s.engine with scan := some slot } := rfl

theorem runOrder_not_accepted {slot : SlotId} {o : Order} {s : State} (h : acceptedIn o s.device = false) :
    runOrder slot o s = refuse slot .wrongState s := by unfold runOrder; rw [if_neg (by simp [h])]

theorem runOrder_loadPlan {slot : SlotId} {a : Addr} {s : State} (h : acceptedIn (.loadPlan a) s.device = true) :
    runOrder slot (.loadPlan a) s = loadPlanOrder slot a s := if_pos h
theorem runOrder_loadPrograms {slot : SlotId} {mask : BitVec 16} {a : Addr} {s : State}
    (h : acceptedIn (.loadPrograms mask a) s.device = true) :
    runOrder slot (.loadPrograms mask a) s = loadProgramsOrder slot mask a s := if_pos h
theorem runOrder_openTrack {slot : SlotId} {t : Byte} {s : State} (h : acceptedIn (.openTrack t) s.device = true) :
    runOrder slot (.openTrack t) s = openOrder slot t s := if_pos h
theorem runOrder_closeTrack {slot : SlotId} {t mode : Byte} {s : State}
    (h : acceptedIn (.closeTrack t mode) s.device = true) :
    runOrder slot (.closeTrack t mode) s = closeOrder slot t mode s := if_pos h
theorem runOrder_giveChain {slot : SlotId} {a : Addr} {s : State} (h : acceptedIn (.giveChain a) s.device = true) :
    runOrder slot (.giveChain a) s = giveChainOrder slot a s := if_pos h
theorem runOrder_withdrawCards {slot : SlotId} {n : Byte} {a : Addr} {s : State}
    (h : acceptedIn (.withdrawCards n a) s.device = true) :
    runOrder slot (.withdrawCards n a) s = withdrawOrder slot n a s := if_pos h
theorem runOrder_drain {slot : SlotId} {s : State} (h : acceptedIn .drain s.device = true) :
    runOrder slot .drain s = drainOrder slot s := if_pos h
theorem runOrder_abandonPassage {slot : SlotId} {id : PassageId} {s : State}
    (h : acceptedIn (.abandonPassage id) s.device = true) :
    runOrder slot (.abandonPassage id) s = abandonOrder slot id s := if_pos h
theorem runOrder_testShot {slot : SlotId} {st p : Byte} {v : Word} {s : State}
    (h : acceptedIn (.testShot st p v) s.device = true) :
    runOrder slot (.testShot st p v) s = testShotOrder slot st p v s := if_pos h
theorem runOrder_snapshot {slot : SlotId} {s : State} (h : acceptedIn .snapshot s.device = true) :
    runOrder slot .snapshot s = snapshotOrder slot s := if_pos h
theorem runOrder_setRest {slot : SlotId} {mask action : Byte} {s : State}
    (h : acceptedIn (.setRest mask action) s.device = true) :
    runOrder slot (.setRest mask action) s = setRestOrder slot mask action s := if_pos h

/-! ## Times -/

theorem reached_iff (t now : Time) : reached t now = true ↔ (now - t).toNat < 2 ^ 47 := decide_eq_true_iff

theorem reached_self (t : Time) : reached t t = true := by simp [reached]

theorem elapsed_of_reached {t u : Time} (h : reached t u = true) : elapsed t u = (u - t).toNat := if_pos h

theorem elapsed_of_not_reached {t u : Time} (h : reached t u = false) : elapsed t u = 0 := by simp [elapsed, h]

/-- A time and a length below half the range of the count, across the wrap too. -/
theorem plusUs_sub (t : Time) {d : Nat} (h : d < 2 ^ 48) : (plusUs t d - t).toNat = d := by
  rw [plusUs, BitVec.toNat_sub, BitVec.toNat_add, BitVec.toNat_ofNat]
  have := t.isLt
  omega

/-- The due timer passes over no due time that has come and is not taken yet, and is set by the time now in every other
case. -/
theorem setDueTimer_of_pending {s : State} {t : Time} (h : s.dueTimer = some t) (hr : reached t s.gantryTime = true) :
    setDueTimer s = { s with dueTimer := earliestInstant (t - 1) s.schedule } := by
  simp [setDueTimer, dueTaken, h, hr]

theorem setDueTimer_of_not_expired {s : State} (h : expired s.dueTimer s.gantryTime = false) :
    setDueTimer s = freshDueTimer s := by
  unfold setDueTimer freshDueTimer dueTaken
  cases hd : s.dueTimer with
  | none => rfl
  | some t => rw [hd] at h; simp [show reached t s.gantryTime = false from h]

/-! ## The tile mover's reads and failed cards -/

theorem completeMoverRead_of_abandoned {phase : Phase} {f : State → State} {s : State} (h : phase ∈ s.mover.abandoned) :
    completeMoverRead phase f s = modMover (fun m => { m with abandoned := m.abandoned.erase phase }) s :=
  if_pos (List.contains_iff_mem.2 h)

theorem completeMoverRead_of_phase {phase : Phase} {f : State → State} {s : State} (h : phase ∉ s.mover.abandoned)
    (hp : s.mover.phase = phase) : completeMoverRead phase f s = endRead (f s) := by
  rw [completeMoverRead, if_neg (fun hc => h (List.contains_iff_mem.1 hc)), if_pos hp]

theorem completeMoverRead_of_other {phase : Phase} {f : State → State} {s : State} (h : phase ∉ s.mover.abandoned)
    (hp : s.mover.phase ≠ phase) : completeMoverRead phase f s = s := by
  rw [completeMoverRead, if_neg (fun hc => h (List.contains_iff_mem.1 hc)), if_neg hp]

/-- Steps 2 to 4 of R143 are left out in FAILED; else the chain is held, then the cause is routed. -/
theorem holdFailedCard_cases (tile : Option Tile) (a : Addr) (s : State) :
    (s.device = .failed → holdFailedCard tile a s = s) ∧
      (s.device ≠ .failed → holdFailedCard tile a s = raise (holdCause .cardWrite tile a s) (modMover (failCard a) s)) :=
  ⟨fun h => if_pos h, fun h => if_neg h⟩

theorem drain_nil (s : State) : drain [] s = s := by
  rw [drain]
  cases workBound s <;> rfl

/-- A removal that leaves the schedule empty offers nothing. -/
theorem removal_of_empty {pid : PassageId} {reason : MissReason} {s : State}
    (h : (missAll reason (s.schedule.filter fun r => r.pid == pid) s).schedule = []) :
    removal pid reason s = missAll reason (s.schedule.filter fun r => r.pid == pid) s := by
  have : freedOffers s (missAll reason (s.schedule.filter fun r => r.pid == pid) s) = [] := by rw [freedOffers, h]; rfl
  rw [removal, this, drain_nil]

/-- An EXPOSURE_END takes an exposure beside a later one first. -/
theorem endExposure_of_lingering {st : StationId} {x : Lingering} {s : State} (h : lingeringEnd st s = some x) :
    endExposure st s = arbitrationPass { s with lingering := s.lingering.erase x } := by
  rw [endExposure, h]

theorem endExposure_in_place {st : StationId} {s : State} (h : lingeringEnd st s = none) :
    endExposure st s = endInPlace st s := by
  rw [endExposure, h]

end Sys2Proof.Machine
end

