-- ==== Sys2Proof/Laws/State.lean ====
section
/-! SUPPORT. What each update of one piece of state does to each field: the field it is for, and that it leaves the others
alone. -/

namespace Sys2Proof.Machine

open Sys2Proof

/-! ## modTrack -/

@[simp] theorem modTrack_gantryTime (t : TrackId) (f : TrackUnit → TrackUnit) (s : State) : (modTrack t f s).gantryTime = s.gantryTime := rfl
@[simp] theorem modTrack_tracks (t : TrackId) (f : TrackUnit → TrackUnit) (s : State) : (modTrack t f s).tracks = s.tracks.set t (f s.tracks[t]) := rfl
@[simp] theorem modTrack_passages (t : TrackId) (f : TrackUnit → TrackUnit) (s : State) : (modTrack t f s).passages = s.passages := rfl
@[simp] theorem modTrack_nextPassageId (t : TrackId) (f : TrackUnit → TrackUnit) (s : State) : (modTrack t f s).nextPassageId = s.nextPassageId := rfl
@[simp] theorem modTrack_headMin (t : TrackId) (f : TrackUnit → TrackUnit) (s : State) : (modTrack t f s).headMin = s.headMin := rfl
@[simp] theorem modTrack_headMax (t : TrackId) (f : TrackUnit → TrackUnit) (s : State) : (modTrack t f s).headMax = s.headMax := rfl
@[simp] theorem modTrack_schedule (t : TrackId) (f : TrackUnit → TrackUnit) (s : State) : (modTrack t f s).schedule = s.schedule := rfl
@[simp] theorem modTrack_dueTimer (t : TrackId) (f : TrackUnit → TrackUnit) (s : State) : (modTrack t f s).dueTimer = s.dueTimer := rfl
@[simp] theorem modTrack_programs (t : TrackId) (f : TrackUnit → TrackUnit) (s : State) : (modTrack t f s).programs = s.programs := rfl
@[simp] theorem modTrack_stations (t : TrackId) (f : TrackUnit → TrackUnit) (s : State) : (modTrack t f s).stations = s.stations := rfl
@[simp] theorem modTrack_units (t : TrackId) (f : TrackUnit → TrackUnit) (s : State) : (modTrack t f s).units = s.units := rfl
@[simp] theorem modTrack_waiting (t : TrackId) (f : TrackUnit → TrackUnit) (s : State) : (modTrack t f s).waiting = s.waiting := rfl
@[simp] theorem modTrack_openExposures (t : TrackId) (f : TrackUnit → TrackUnit) (s : State) : (modTrack t f s).openExposures = s.openExposures := rfl
@[simp] theorem modTrack_lingering (t : TrackId) (f : TrackUnit → TrackUnit) (s : State) : (modTrack t f s).lingering = s.lingering := rfl
@[simp] theorem modTrack_ports (t : TrackId) (f : TrackUnit → TrackUnit) (s : State) : (modTrack t f s).ports = s.ports := rfl
@[simp] theorem modTrack_mover (t : TrackId) (f : TrackUnit → TrackUnit) (s : State) : (modTrack t f s).mover = s.mover := rfl
@[simp] theorem modTrack_writer (t : TrackId) (f : TrackUnit → TrackUnit) (s : State) : (modTrack t f s).writer = s.writer := rfl
@[simp] theorem modTrack_engine (t : TrackId) (f : TrackUnit → TrackUnit) (s : State) : (modTrack t f s).engine = s.engine := rfl
@[simp] theorem modTrack_base (t : TrackId) (f : TrackUnit → TrackUnit) (s : State) : (modTrack t f s).base = s.base := rfl
@[simp] theorem modTrack_stagedLow (t : TrackId) (f : TrackUnit → TrackUnit) (s : State) : (modTrack t f s).stagedLow = s.stagedLow := rfl
@[simp] theorem modTrack_enables (t : TrackId) (f : TrackUnit → TrackUnit) (s : State) : (modTrack t f s).enables = s.enables := rfl
@[simp] theorem modTrack_device (t : TrackId) (f : TrackUnit → TrackUnit) (s : State) : (modTrack t f s).device = s.device := rfl
@[simp] theorem modTrack_failReason (t : TrackId) (f : TrackUnit → TrackUnit) (s : State) : (modTrack t f s).failReason = s.failReason := rfl
@[simp] theorem modTrack_routingLimit (t : TrackId) (f : TrackUnit → TrackUnit) (s : State) : (modTrack t f s).routingLimit = s.routingLimit := rfl
@[simp] theorem modTrack_routing (t : TrackId) (f : TrackUnit → TrackUnit) (s : State) : (modTrack t f s).routing = s.routing := rfl
@[simp] theorem modTrack_latches (t : TrackId) (f : TrackUnit → TrackUnit) (s : State) : (modTrack t f s).latches = s.latches := rfl
@[simp] theorem modTrack_mem (t : TrackId) (f : TrackUnit → TrackUnit) (s : State) : (modTrack t f s).mem = s.mem := rfl
@[simp] theorem modTrack_readErrors (t : TrackId) (f : TrackUnit → TrackUnit) (s : State) : (modTrack t f s).readErrors = s.readErrors := rfl
@[simp] theorem modTrack_writeErrors (t : TrackId) (f : TrackUnit → TrackUnit) (s : State) : (modTrack t f s).writeErrors = s.writeErrors := rfl
@[simp] theorem modTrack_outputs (t : TrackId) (f : TrackUnit → TrackUnit) (s : State) : (modTrack t f s).outputs = s.outputs := rfl
@[simp] theorem modTrack_freeCount (t : TrackId) (f : TrackUnit → TrackUnit) (s : State) : (modTrack t f s).freeCount = s.freeCount := rfl
@[simp] theorem modTrack_undone (t : TrackId) (f : TrackUnit → TrackUnit) (s : State) : (modTrack t f s).undone = s.undone := rfl
@[simp] theorem modTrack_pending (t : TrackId) (f : TrackUnit → TrackUnit) (s : State) : (modTrack t f s).pending = s.pending := rfl

/-! ## setPassage -/

@[simp] theorem setPassage_gantryTime (k : ContextId) (p : Option Passage) (s : State) : (setPassage k p s).gantryTime = s.gantryTime := rfl
@[simp] theorem setPassage_tracks (k : ContextId) (p : Option Passage) (s : State) : (setPassage k p s).tracks = s.tracks := rfl
@[simp] theorem setPassage_passages (k : ContextId) (p : Option Passage) (s : State) : (setPassage k p s).passages = s.passages.set k p := rfl
@[simp] theorem setPassage_nextPassageId (k : ContextId) (p : Option Passage) (s : State) : (setPassage k p s).nextPassageId = s.nextPassageId := rfl
@[simp] theorem setPassage_headMin (k : ContextId) (p : Option Passage) (s : State) : (setPassage k p s).headMin = s.headMin := rfl
@[simp] theorem setPassage_headMax (k : ContextId) (p : Option Passage) (s : State) : (setPassage k p s).headMax = s.headMax := rfl
@[simp] theorem setPassage_schedule (k : ContextId) (p : Option Passage) (s : State) : (setPassage k p s).schedule = s.schedule := rfl
@[simp] theorem setPassage_dueTimer (k : ContextId) (p : Option Passage) (s : State) : (setPassage k p s).dueTimer = s.dueTimer := rfl
@[simp] theorem setPassage_programs (k : ContextId) (p : Option Passage) (s : State) : (setPassage k p s).programs = s.programs := rfl
@[simp] theorem setPassage_stations (k : ContextId) (p : Option Passage) (s : State) : (setPassage k p s).stations = s.stations := rfl
@[simp] theorem setPassage_units (k : ContextId) (p : Option Passage) (s : State) : (setPassage k p s).units = s.units := rfl
@[simp] theorem setPassage_waiting (k : ContextId) (p : Option Passage) (s : State) : (setPassage k p s).waiting = s.waiting := rfl
@[simp] theorem setPassage_openExposures (k : ContextId) (p : Option Passage) (s : State) : (setPassage k p s).openExposures = s.openExposures := rfl
@[simp] theorem setPassage_lingering (k : ContextId) (p : Option Passage) (s : State) : (setPassage k p s).lingering = s.lingering := rfl
@[simp] theorem setPassage_ports (k : ContextId) (p : Option Passage) (s : State) : (setPassage k p s).ports = s.ports := rfl
@[simp] theorem setPassage_mover (k : ContextId) (p : Option Passage) (s : State) : (setPassage k p s).mover = s.mover := rfl
@[simp] theorem setPassage_writer (k : ContextId) (p : Option Passage) (s : State) : (setPassage k p s).writer = s.writer := rfl
@[simp] theorem setPassage_engine (k : ContextId) (p : Option Passage) (s : State) : (setPassage k p s).engine = s.engine := rfl
@[simp] theorem setPassage_base (k : ContextId) (p : Option Passage) (s : State) : (setPassage k p s).base = s.base := rfl
@[simp] theorem setPassage_stagedLow (k : ContextId) (p : Option Passage) (s : State) : (setPassage k p s).stagedLow = s.stagedLow := rfl
@[simp] theorem setPassage_enables (k : ContextId) (p : Option Passage) (s : State) : (setPassage k p s).enables = s.enables := rfl
@[simp] theorem setPassage_device (k : ContextId) (p : Option Passage) (s : State) : (setPassage k p s).device = s.device := rfl
@[simp] theorem setPassage_failReason (k : ContextId) (p : Option Passage) (s : State) : (setPassage k p s).failReason = s.failReason := rfl
@[simp] theorem setPassage_routingLimit (k : ContextId) (p : Option Passage) (s : State) : (setPassage k p s).routingLimit = s.routingLimit := rfl
@[simp] theorem setPassage_routing (k : ContextId) (p : Option Passage) (s : State) : (setPassage k p s).routing = s.routing := rfl
@[simp] theorem setPassage_latches (k : ContextId) (p : Option Passage) (s : State) : (setPassage k p s).latches = s.latches := rfl
@[simp] theorem setPassage_mem (k : ContextId) (p : Option Passage) (s : State) : (setPassage k p s).mem = s.mem := rfl
@[simp] theorem setPassage_readErrors (k : ContextId) (p : Option Passage) (s : State) : (setPassage k p s).readErrors = s.readErrors := rfl
@[simp] theorem setPassage_writeErrors (k : ContextId) (p : Option Passage) (s : State) : (setPassage k p s).writeErrors = s.writeErrors := rfl
@[simp] theorem setPassage_outputs (k : ContextId) (p : Option Passage) (s : State) : (setPassage k p s).outputs = s.outputs := rfl
@[simp] theorem setPassage_freeCount (k : ContextId) (p : Option Passage) (s : State) : (setPassage k p s).freeCount = s.freeCount := rfl
@[simp] theorem setPassage_undone (k : ContextId) (p : Option Passage) (s : State) : (setPassage k p s).undone = s.undone := rfl
@[simp] theorem setPassage_pending (k : ContextId) (p : Option Passage) (s : State) : (setPassage k p s).pending = s.pending := rfl

/-! ## modStation -/

@[simp] theorem modStation_gantryTime (st : StationId) (f : Station → Station) (s : State) : (modStation st f s).gantryTime = s.gantryTime := rfl
@[simp] theorem modStation_tracks (st : StationId) (f : Station → Station) (s : State) : (modStation st f s).tracks = s.tracks := rfl
@[simp] theorem modStation_passages (st : StationId) (f : Station → Station) (s : State) : (modStation st f s).passages = s.passages := rfl
@[simp] theorem modStation_nextPassageId (st : StationId) (f : Station → Station) (s : State) : (modStation st f s).nextPassageId = s.nextPassageId := rfl
@[simp] theorem modStation_headMin (st : StationId) (f : Station → Station) (s : State) : (modStation st f s).headMin = s.headMin := rfl
@[simp] theorem modStation_headMax (st : StationId) (f : Station → Station) (s : State) : (modStation st f s).headMax = s.headMax := rfl
@[simp] theorem modStation_schedule (st : StationId) (f : Station → Station) (s : State) : (modStation st f s).schedule = s.schedule := rfl
@[simp] theorem modStation_dueTimer (st : StationId) (f : Station → Station) (s : State) : (modStation st f s).dueTimer = s.dueTimer := rfl
@[simp] theorem modStation_programs (st : StationId) (f : Station → Station) (s : State) : (modStation st f s).programs = s.programs := rfl
@[simp] theorem modStation_stations (st : StationId) (f : Station → Station) (s : State) : (modStation st f s).stations = s.stations.set st (f s.stations[st]) := rfl
@[simp] theorem modStation_units (st : StationId) (f : Station → Station) (s : State) : (modStation st f s).units = s.units := rfl
@[simp] theorem modStation_waiting (st : StationId) (f : Station → Station) (s : State) : (modStation st f s).waiting = s.waiting := rfl
@[simp] theorem modStation_openExposures (st : StationId) (f : Station → Station) (s : State) : (modStation st f s).openExposures = s.openExposures := rfl
@[simp] theorem modStation_lingering (st : StationId) (f : Station → Station) (s : State) : (modStation st f s).lingering = s.lingering := rfl
@[simp] theorem modStation_ports (st : StationId) (f : Station → Station) (s : State) : (modStation st f s).ports = s.ports := rfl
@[simp] theorem modStation_mover (st : StationId) (f : Station → Station) (s : State) : (modStation st f s).mover = s.mover := rfl
@[simp] theorem modStation_writer (st : StationId) (f : Station → Station) (s : State) : (modStation st f s).writer = s.writer := rfl
@[simp] theorem modStation_engine (st : StationId) (f : Station → Station) (s : State) : (modStation st f s).engine = s.engine := rfl
@[simp] theorem modStation_base (st : StationId) (f : Station → Station) (s : State) : (modStation st f s).base = s.base := rfl
@[simp] theorem modStation_stagedLow (st : StationId) (f : Station → Station) (s : State) : (modStation st f s).stagedLow = s.stagedLow := rfl
@[simp] theorem modStation_enables (st : StationId) (f : Station → Station) (s : State) : (modStation st f s).enables = s.enables := rfl
@[simp] theorem modStation_device (st : StationId) (f : Station → Station) (s : State) : (modStation st f s).device = s.device := rfl
@[simp] theorem modStation_failReason (st : StationId) (f : Station → Station) (s : State) : (modStation st f s).failReason = s.failReason := rfl
@[simp] theorem modStation_routingLimit (st : StationId) (f : Station → Station) (s : State) : (modStation st f s).routingLimit = s.routingLimit := rfl
@[simp] theorem modStation_routing (st : StationId) (f : Station → Station) (s : State) : (modStation st f s).routing = s.routing := rfl
@[simp] theorem modStation_latches (st : StationId) (f : Station → Station) (s : State) : (modStation st f s).latches = s.latches := rfl
@[simp] theorem modStation_mem (st : StationId) (f : Station → Station) (s : State) : (modStation st f s).mem = s.mem := rfl
@[simp] theorem modStation_readErrors (st : StationId) (f : Station → Station) (s : State) : (modStation st f s).readErrors = s.readErrors := rfl
@[simp] theorem modStation_writeErrors (st : StationId) (f : Station → Station) (s : State) : (modStation st f s).writeErrors = s.writeErrors := rfl
@[simp] theorem modStation_outputs (st : StationId) (f : Station → Station) (s : State) : (modStation st f s).outputs = s.outputs := rfl
@[simp] theorem modStation_freeCount (st : StationId) (f : Station → Station) (s : State) : (modStation st f s).freeCount = s.freeCount := rfl
@[simp] theorem modStation_undone (st : StationId) (f : Station → Station) (s : State) : (modStation st f s).undone = s.undone := rfl
@[simp] theorem modStation_pending (st : StationId) (f : Station → Station) (s : State) : (modStation st f s).pending = s.pending := rfl

/-! ## modUnit -/

@[simp] theorem modUnit_gantryTime (u : UnitId) (f : StrobeUnit → StrobeUnit) (s : State) : (modUnit u f s).gantryTime = s.gantryTime := rfl
@[simp] theorem modUnit_tracks (u : UnitId) (f : StrobeUnit → StrobeUnit) (s : State) : (modUnit u f s).tracks = s.tracks := rfl
@[simp] theorem modUnit_passages (u : UnitId) (f : StrobeUnit → StrobeUnit) (s : State) : (modUnit u f s).passages = s.passages := rfl
@[simp] theorem modUnit_nextPassageId (u : UnitId) (f : StrobeUnit → StrobeUnit) (s : State) : (modUnit u f s).nextPassageId = s.nextPassageId := rfl
@[simp] theorem modUnit_headMin (u : UnitId) (f : StrobeUnit → StrobeUnit) (s : State) : (modUnit u f s).headMin = s.headMin := rfl
@[simp] theorem modUnit_headMax (u : UnitId) (f : StrobeUnit → StrobeUnit) (s : State) : (modUnit u f s).headMax = s.headMax := rfl
@[simp] theorem modUnit_schedule (u : UnitId) (f : StrobeUnit → StrobeUnit) (s : State) : (modUnit u f s).schedule = s.schedule := rfl
@[simp] theorem modUnit_dueTimer (u : UnitId) (f : StrobeUnit → StrobeUnit) (s : State) : (modUnit u f s).dueTimer = s.dueTimer := rfl
@[simp] theorem modUnit_programs (u : UnitId) (f : StrobeUnit → StrobeUnit) (s : State) : (modUnit u f s).programs = s.programs := rfl
@[simp] theorem modUnit_stations (u : UnitId) (f : StrobeUnit → StrobeUnit) (s : State) : (modUnit u f s).stations = s.stations := rfl
@[simp] theorem modUnit_units (u : UnitId) (f : StrobeUnit → StrobeUnit) (s : State) : (modUnit u f s).units = s.units.set u (f s.units[u]) := rfl
@[simp] theorem modUnit_waiting (u : UnitId) (f : StrobeUnit → StrobeUnit) (s : State) : (modUnit u f s).waiting = s.waiting := rfl
@[simp] theorem modUnit_openExposures (u : UnitId) (f : StrobeUnit → StrobeUnit) (s : State) : (modUnit u f s).openExposures = s.openExposures := rfl
@[simp] theorem modUnit_lingering (u : UnitId) (f : StrobeUnit → StrobeUnit) (s : State) : (modUnit u f s).lingering = s.lingering := rfl
@[simp] theorem modUnit_ports (u : UnitId) (f : StrobeUnit → StrobeUnit) (s : State) : (modUnit u f s).ports = s.ports := rfl
@[simp] theorem modUnit_mover (u : UnitId) (f : StrobeUnit → StrobeUnit) (s : State) : (modUnit u f s).mover = s.mover := rfl
@[simp] theorem modUnit_writer (u : UnitId) (f : StrobeUnit → StrobeUnit) (s : State) : (modUnit u f s).writer = s.writer := rfl
@[simp] theorem modUnit_engine (u : UnitId) (f : StrobeUnit → StrobeUnit) (s : State) : (modUnit u f s).engine = s.engine := rfl
@[simp] theorem modUnit_base (u : UnitId) (f : StrobeUnit → StrobeUnit) (s : State) : (modUnit u f s).base = s.base := rfl
@[simp] theorem modUnit_stagedLow (u : UnitId) (f : StrobeUnit → StrobeUnit) (s : State) : (modUnit u f s).stagedLow = s.stagedLow := rfl
@[simp] theorem modUnit_enables (u : UnitId) (f : StrobeUnit → StrobeUnit) (s : State) : (modUnit u f s).enables = s.enables := rfl
@[simp] theorem modUnit_device (u : UnitId) (f : StrobeUnit → StrobeUnit) (s : State) : (modUnit u f s).device = s.device := rfl
@[simp] theorem modUnit_failReason (u : UnitId) (f : StrobeUnit → StrobeUnit) (s : State) : (modUnit u f s).failReason = s.failReason := rfl
@[simp] theorem modUnit_routingLimit (u : UnitId) (f : StrobeUnit → StrobeUnit) (s : State) : (modUnit u f s).routingLimit = s.routingLimit := rfl
@[simp] theorem modUnit_routing (u : UnitId) (f : StrobeUnit → StrobeUnit) (s : State) : (modUnit u f s).routing = s.routing := rfl
@[simp] theorem modUnit_latches (u : UnitId) (f : StrobeUnit → StrobeUnit) (s : State) : (modUnit u f s).latches = s.latches := rfl
@[simp] theorem modUnit_mem (u : UnitId) (f : StrobeUnit → StrobeUnit) (s : State) : (modUnit u f s).mem = s.mem := rfl
@[simp] theorem modUnit_readErrors (u : UnitId) (f : StrobeUnit → StrobeUnit) (s : State) : (modUnit u f s).readErrors = s.readErrors := rfl
@[simp] theorem modUnit_writeErrors (u : UnitId) (f : StrobeUnit → StrobeUnit) (s : State) : (modUnit u f s).writeErrors = s.writeErrors := rfl
@[simp] theorem modUnit_outputs (u : UnitId) (f : StrobeUnit → StrobeUnit) (s : State) : (modUnit u f s).outputs = s.outputs := rfl
@[simp] theorem modUnit_freeCount (u : UnitId) (f : StrobeUnit → StrobeUnit) (s : State) : (modUnit u f s).freeCount = s.freeCount := rfl
@[simp] theorem modUnit_undone (u : UnitId) (f : StrobeUnit → StrobeUnit) (s : State) : (modUnit u f s).undone = s.undone := rfl
@[simp] theorem modUnit_pending (u : UnitId) (f : StrobeUnit → StrobeUnit) (s : State) : (modUnit u f s).pending = s.pending := rfl

/-! ## modPort -/

@[simp] theorem modPort_gantryTime (st : StationId) (f : Port → Port) (s : State) : (modPort st f s).gantryTime = s.gantryTime := rfl
@[simp] theorem modPort_tracks (st : StationId) (f : Port → Port) (s : State) : (modPort st f s).tracks = s.tracks := rfl
@[simp] theorem modPort_passages (st : StationId) (f : Port → Port) (s : State) : (modPort st f s).passages = s.passages := rfl
@[simp] theorem modPort_nextPassageId (st : StationId) (f : Port → Port) (s : State) : (modPort st f s).nextPassageId = s.nextPassageId := rfl
@[simp] theorem modPort_headMin (st : StationId) (f : Port → Port) (s : State) : (modPort st f s).headMin = s.headMin := rfl
@[simp] theorem modPort_headMax (st : StationId) (f : Port → Port) (s : State) : (modPort st f s).headMax = s.headMax := rfl
@[simp] theorem modPort_schedule (st : StationId) (f : Port → Port) (s : State) : (modPort st f s).schedule = s.schedule := rfl
@[simp] theorem modPort_dueTimer (st : StationId) (f : Port → Port) (s : State) : (modPort st f s).dueTimer = s.dueTimer := rfl
@[simp] theorem modPort_programs (st : StationId) (f : Port → Port) (s : State) : (modPort st f s).programs = s.programs := rfl
@[simp] theorem modPort_stations (st : StationId) (f : Port → Port) (s : State) : (modPort st f s).stations = s.stations := rfl
@[simp] theorem modPort_units (st : StationId) (f : Port → Port) (s : State) : (modPort st f s).units = s.units := rfl
@[simp] theorem modPort_waiting (st : StationId) (f : Port → Port) (s : State) : (modPort st f s).waiting = s.waiting := rfl
@[simp] theorem modPort_openExposures (st : StationId) (f : Port → Port) (s : State) : (modPort st f s).openExposures = s.openExposures := rfl
@[simp] theorem modPort_lingering (st : StationId) (f : Port → Port) (s : State) : (modPort st f s).lingering = s.lingering := rfl
@[simp] theorem modPort_ports (st : StationId) (f : Port → Port) (s : State) : (modPort st f s).ports = s.ports.set st (f s.ports[st]) := rfl
@[simp] theorem modPort_mover (st : StationId) (f : Port → Port) (s : State) : (modPort st f s).mover = s.mover := rfl
@[simp] theorem modPort_writer (st : StationId) (f : Port → Port) (s : State) : (modPort st f s).writer = s.writer := rfl
@[simp] theorem modPort_engine (st : StationId) (f : Port → Port) (s : State) : (modPort st f s).engine = s.engine := rfl
@[simp] theorem modPort_base (st : StationId) (f : Port → Port) (s : State) : (modPort st f s).base = s.base := rfl
@[simp] theorem modPort_stagedLow (st : StationId) (f : Port → Port) (s : State) : (modPort st f s).stagedLow = s.stagedLow := rfl
@[simp] theorem modPort_enables (st : StationId) (f : Port → Port) (s : State) : (modPort st f s).enables = s.enables := rfl
@[simp] theorem modPort_device (st : StationId) (f : Port → Port) (s : State) : (modPort st f s).device = s.device := rfl
@[simp] theorem modPort_failReason (st : StationId) (f : Port → Port) (s : State) : (modPort st f s).failReason = s.failReason := rfl
@[simp] theorem modPort_routingLimit (st : StationId) (f : Port → Port) (s : State) : (modPort st f s).routingLimit = s.routingLimit := rfl
@[simp] theorem modPort_routing (st : StationId) (f : Port → Port) (s : State) : (modPort st f s).routing = s.routing := rfl
@[simp] theorem modPort_latches (st : StationId) (f : Port → Port) (s : State) : (modPort st f s).latches = s.latches := rfl
@[simp] theorem modPort_mem (st : StationId) (f : Port → Port) (s : State) : (modPort st f s).mem = s.mem := rfl
@[simp] theorem modPort_readErrors (st : StationId) (f : Port → Port) (s : State) : (modPort st f s).readErrors = s.readErrors := rfl
@[simp] theorem modPort_writeErrors (st : StationId) (f : Port → Port) (s : State) : (modPort st f s).writeErrors = s.writeErrors := rfl
@[simp] theorem modPort_outputs (st : StationId) (f : Port → Port) (s : State) : (modPort st f s).outputs = s.outputs := rfl
@[simp] theorem modPort_freeCount (st : StationId) (f : Port → Port) (s : State) : (modPort st f s).freeCount = s.freeCount := rfl
@[simp] theorem modPort_undone (st : StationId) (f : Port → Port) (s : State) : (modPort st f s).undone = s.undone := rfl
@[simp] theorem modPort_pending (st : StationId) (f : Port → Port) (s : State) : (modPort st f s).pending = s.pending := rfl

/-! ## setOpenExposure -/

@[simp] theorem setOpenExposure_gantryTime (st : StationId) (e : Option OpenExposure) (s : State) : (setOpenExposure st e s).gantryTime = s.gantryTime := rfl
@[simp] theorem setOpenExposure_tracks (st : StationId) (e : Option OpenExposure) (s : State) : (setOpenExposure st e s).tracks = s.tracks := rfl
@[simp] theorem setOpenExposure_passages (st : StationId) (e : Option OpenExposure) (s : State) : (setOpenExposure st e s).passages = s.passages := rfl
@[simp] theorem setOpenExposure_nextPassageId (st : StationId) (e : Option OpenExposure) (s : State) : (setOpenExposure st e s).nextPassageId = s.nextPassageId := rfl
@[simp] theorem setOpenExposure_headMin (st : StationId) (e : Option OpenExposure) (s : State) : (setOpenExposure st e s).headMin = s.headMin := rfl
@[simp] theorem setOpenExposure_headMax (st : StationId) (e : Option OpenExposure) (s : State) : (setOpenExposure st e s).headMax = s.headMax := rfl
@[simp] theorem setOpenExposure_schedule (st : StationId) (e : Option OpenExposure) (s : State) : (setOpenExposure st e s).schedule = s.schedule := rfl
@[simp] theorem setOpenExposure_dueTimer (st : StationId) (e : Option OpenExposure) (s : State) : (setOpenExposure st e s).dueTimer = s.dueTimer := rfl
@[simp] theorem setOpenExposure_programs (st : StationId) (e : Option OpenExposure) (s : State) : (setOpenExposure st e s).programs = s.programs := rfl
@[simp] theorem setOpenExposure_stations (st : StationId) (e : Option OpenExposure) (s : State) : (setOpenExposure st e s).stations = s.stations := rfl
@[simp] theorem setOpenExposure_units (st : StationId) (e : Option OpenExposure) (s : State) : (setOpenExposure st e s).units = s.units := rfl
@[simp] theorem setOpenExposure_waiting (st : StationId) (e : Option OpenExposure) (s : State) : (setOpenExposure st e s).waiting = s.waiting := rfl
@[simp] theorem setOpenExposure_openExposures (st : StationId) (e : Option OpenExposure) (s : State) : (setOpenExposure st e s).openExposures = s.openExposures.set st e := rfl
@[simp] theorem setOpenExposure_lingering (st : StationId) (e : Option OpenExposure) (s : State) : (setOpenExposure st e s).lingering = s.lingering := rfl
@[simp] theorem setOpenExposure_ports (st : StationId) (e : Option OpenExposure) (s : State) : (setOpenExposure st e s).ports = s.ports := rfl
@[simp] theorem setOpenExposure_mover (st : StationId) (e : Option OpenExposure) (s : State) : (setOpenExposure st e s).mover = s.mover := rfl
@[simp] theorem setOpenExposure_writer (st : StationId) (e : Option OpenExposure) (s : State) : (setOpenExposure st e s).writer = s.writer := rfl
@[simp] theorem setOpenExposure_engine (st : StationId) (e : Option OpenExposure) (s : State) : (setOpenExposure st e s).engine = s.engine := rfl
@[simp] theorem setOpenExposure_base (st : StationId) (e : Option OpenExposure) (s : State) : (setOpenExposure st e s).base = s.base := rfl
@[simp] theorem setOpenExposure_stagedLow (st : StationId) (e : Option OpenExposure) (s : State) : (setOpenExposure st e s).stagedLow = s.stagedLow := rfl
@[simp] theorem setOpenExposure_enables (st : StationId) (e : Option OpenExposure) (s : State) : (setOpenExposure st e s).enables = s.enables := rfl
@[simp] theorem setOpenExposure_device (st : StationId) (e : Option OpenExposure) (s : State) : (setOpenExposure st e s).device = s.device := rfl
@[simp] theorem setOpenExposure_failReason (st : StationId) (e : Option OpenExposure) (s : State) : (setOpenExposure st e s).failReason = s.failReason := rfl
@[simp] theorem setOpenExposure_routingLimit (st : StationId) (e : Option OpenExposure) (s : State) : (setOpenExposure st e s).routingLimit = s.routingLimit := rfl
@[simp] theorem setOpenExposure_routing (st : StationId) (e : Option OpenExposure) (s : State) : (setOpenExposure st e s).routing = s.routing := rfl
@[simp] theorem setOpenExposure_latches (st : StationId) (e : Option OpenExposure) (s : State) : (setOpenExposure st e s).latches = s.latches := rfl
@[simp] theorem setOpenExposure_mem (st : StationId) (e : Option OpenExposure) (s : State) : (setOpenExposure st e s).mem = s.mem := rfl
@[simp] theorem setOpenExposure_readErrors (st : StationId) (e : Option OpenExposure) (s : State) : (setOpenExposure st e s).readErrors = s.readErrors := rfl
@[simp] theorem setOpenExposure_writeErrors (st : StationId) (e : Option OpenExposure) (s : State) : (setOpenExposure st e s).writeErrors = s.writeErrors := rfl
@[simp] theorem setOpenExposure_outputs (st : StationId) (e : Option OpenExposure) (s : State) : (setOpenExposure st e s).outputs = s.outputs := rfl
@[simp] theorem setOpenExposure_freeCount (st : StationId) (e : Option OpenExposure) (s : State) : (setOpenExposure st e s).freeCount = s.freeCount := rfl
@[simp] theorem setOpenExposure_undone (st : StationId) (e : Option OpenExposure) (s : State) : (setOpenExposure st e s).undone = s.undone := rfl
@[simp] theorem setOpenExposure_pending (st : StationId) (e : Option OpenExposure) (s : State) : (setOpenExposure st e s).pending = s.pending := rfl

/-! ## modMover -/

@[simp] theorem modMover_gantryTime (f : TileMover → TileMover) (s : State) : (modMover f s).gantryTime = s.gantryTime := rfl
@[simp] theorem modMover_tracks (f : TileMover → TileMover) (s : State) : (modMover f s).tracks = s.tracks := rfl
@[simp] theorem modMover_passages (f : TileMover → TileMover) (s : State) : (modMover f s).passages = s.passages := rfl
@[simp] theorem modMover_nextPassageId (f : TileMover → TileMover) (s : State) : (modMover f s).nextPassageId = s.nextPassageId := rfl
@[simp] theorem modMover_headMin (f : TileMover → TileMover) (s : State) : (modMover f s).headMin = s.headMin := rfl
@[simp] theorem modMover_headMax (f : TileMover → TileMover) (s : State) : (modMover f s).headMax = s.headMax := rfl
@[simp] theorem modMover_schedule (f : TileMover → TileMover) (s : State) : (modMover f s).schedule = s.schedule := rfl
@[simp] theorem modMover_dueTimer (f : TileMover → TileMover) (s : State) : (modMover f s).dueTimer = s.dueTimer := rfl
@[simp] theorem modMover_programs (f : TileMover → TileMover) (s : State) : (modMover f s).programs = s.programs := rfl
@[simp] theorem modMover_stations (f : TileMover → TileMover) (s : State) : (modMover f s).stations = s.stations := rfl
@[simp] theorem modMover_units (f : TileMover → TileMover) (s : State) : (modMover f s).units = s.units := rfl
@[simp] theorem modMover_waiting (f : TileMover → TileMover) (s : State) : (modMover f s).waiting = s.waiting := rfl
@[simp] theorem modMover_openExposures (f : TileMover → TileMover) (s : State) : (modMover f s).openExposures = s.openExposures := rfl
@[simp] theorem modMover_lingering (f : TileMover → TileMover) (s : State) : (modMover f s).lingering = s.lingering := rfl
@[simp] theorem modMover_ports (f : TileMover → TileMover) (s : State) : (modMover f s).ports = s.ports := rfl
@[simp] theorem modMover_mover (f : TileMover → TileMover) (s : State) : (modMover f s).mover = f s.mover := rfl
@[simp] theorem modMover_writer (f : TileMover → TileMover) (s : State) : (modMover f s).writer = s.writer := rfl
@[simp] theorem modMover_engine (f : TileMover → TileMover) (s : State) : (modMover f s).engine = s.engine := rfl
@[simp] theorem modMover_base (f : TileMover → TileMover) (s : State) : (modMover f s).base = s.base := rfl
@[simp] theorem modMover_stagedLow (f : TileMover → TileMover) (s : State) : (modMover f s).stagedLow = s.stagedLow := rfl
@[simp] theorem modMover_enables (f : TileMover → TileMover) (s : State) : (modMover f s).enables = s.enables := rfl
@[simp] theorem modMover_device (f : TileMover → TileMover) (s : State) : (modMover f s).device = s.device := rfl
@[simp] theorem modMover_failReason (f : TileMover → TileMover) (s : State) : (modMover f s).failReason = s.failReason := rfl
@[simp] theorem modMover_routingLimit (f : TileMover → TileMover) (s : State) : (modMover f s).routingLimit = s.routingLimit := rfl
@[simp] theorem modMover_routing (f : TileMover → TileMover) (s : State) : (modMover f s).routing = s.routing := rfl
@[simp] theorem modMover_latches (f : TileMover → TileMover) (s : State) : (modMover f s).latches = s.latches := rfl
@[simp] theorem modMover_mem (f : TileMover → TileMover) (s : State) : (modMover f s).mem = s.mem := rfl
@[simp] theorem modMover_readErrors (f : TileMover → TileMover) (s : State) : (modMover f s).readErrors = s.readErrors := rfl
@[simp] theorem modMover_writeErrors (f : TileMover → TileMover) (s : State) : (modMover f s).writeErrors = s.writeErrors := rfl
@[simp] theorem modMover_outputs (f : TileMover → TileMover) (s : State) : (modMover f s).outputs = s.outputs := rfl
@[simp] theorem modMover_freeCount (f : TileMover → TileMover) (s : State) : (modMover f s).freeCount = s.freeCount := rfl
@[simp] theorem modMover_undone (f : TileMover → TileMover) (s : State) : (modMover f s).undone = s.undone := rfl
@[simp] theorem modMover_pending (f : TileMover → TileMover) (s : State) : (modMover f s).pending = s.pending := rfl

/-! ## modWriter -/

@[simp] theorem modWriter_gantryTime (f : ReportWriter → ReportWriter) (s : State) : (modWriter f s).gantryTime = s.gantryTime := rfl
@[simp] theorem modWriter_tracks (f : ReportWriter → ReportWriter) (s : State) : (modWriter f s).tracks = s.tracks := rfl
@[simp] theorem modWriter_passages (f : ReportWriter → ReportWriter) (s : State) : (modWriter f s).passages = s.passages := rfl
@[simp] theorem modWriter_nextPassageId (f : ReportWriter → ReportWriter) (s : State) : (modWriter f s).nextPassageId = s.nextPassageId := rfl
@[simp] theorem modWriter_headMin (f : ReportWriter → ReportWriter) (s : State) : (modWriter f s).headMin = s.headMin := rfl
@[simp] theorem modWriter_headMax (f : ReportWriter → ReportWriter) (s : State) : (modWriter f s).headMax = s.headMax := rfl
@[simp] theorem modWriter_schedule (f : ReportWriter → ReportWriter) (s : State) : (modWriter f s).schedule = s.schedule := rfl
@[simp] theorem modWriter_dueTimer (f : ReportWriter → ReportWriter) (s : State) : (modWriter f s).dueTimer = s.dueTimer := rfl
@[simp] theorem modWriter_programs (f : ReportWriter → ReportWriter) (s : State) : (modWriter f s).programs = s.programs := rfl
@[simp] theorem modWriter_stations (f : ReportWriter → ReportWriter) (s : State) : (modWriter f s).stations = s.stations := rfl
@[simp] theorem modWriter_units (f : ReportWriter → ReportWriter) (s : State) : (modWriter f s).units = s.units := rfl
@[simp] theorem modWriter_waiting (f : ReportWriter → ReportWriter) (s : State) : (modWriter f s).waiting = s.waiting := rfl
@[simp] theorem modWriter_openExposures (f : ReportWriter → ReportWriter) (s : State) : (modWriter f s).openExposures = s.openExposures := rfl
@[simp] theorem modWriter_lingering (f : ReportWriter → ReportWriter) (s : State) : (modWriter f s).lingering = s.lingering := rfl
@[simp] theorem modWriter_ports (f : ReportWriter → ReportWriter) (s : State) : (modWriter f s).ports = s.ports := rfl
@[simp] theorem modWriter_mover (f : ReportWriter → ReportWriter) (s : State) : (modWriter f s).mover = s.mover := rfl
@[simp] theorem modWriter_writer (f : ReportWriter → ReportWriter) (s : State) : (modWriter f s).writer = f s.writer := rfl
@[simp] theorem modWriter_engine (f : ReportWriter → ReportWriter) (s : State) : (modWriter f s).engine = s.engine := rfl
@[simp] theorem modWriter_base (f : ReportWriter → ReportWriter) (s : State) : (modWriter f s).base = s.base := rfl
@[simp] theorem modWriter_stagedLow (f : ReportWriter → ReportWriter) (s : State) : (modWriter f s).stagedLow = s.stagedLow := rfl
@[simp] theorem modWriter_enables (f : ReportWriter → ReportWriter) (s : State) : (modWriter f s).enables = s.enables := rfl
@[simp] theorem modWriter_device (f : ReportWriter → ReportWriter) (s : State) : (modWriter f s).device = s.device := rfl
@[simp] theorem modWriter_failReason (f : ReportWriter → ReportWriter) (s : State) : (modWriter f s).failReason = s.failReason := rfl
@[simp] theorem modWriter_routingLimit (f : ReportWriter → ReportWriter) (s : State) : (modWriter f s).routingLimit = s.routingLimit := rfl
@[simp] theorem modWriter_routing (f : ReportWriter → ReportWriter) (s : State) : (modWriter f s).routing = s.routing := rfl
@[simp] theorem modWriter_latches (f : ReportWriter → ReportWriter) (s : State) : (modWriter f s).latches = s.latches := rfl
@[simp] theorem modWriter_mem (f : ReportWriter → ReportWriter) (s : State) : (modWriter f s).mem = s.mem := rfl
@[simp] theorem modWriter_readErrors (f : ReportWriter → ReportWriter) (s : State) : (modWriter f s).readErrors = s.readErrors := rfl
@[simp] theorem modWriter_writeErrors (f : ReportWriter → ReportWriter) (s : State) : (modWriter f s).writeErrors = s.writeErrors := rfl
@[simp] theorem modWriter_outputs (f : ReportWriter → ReportWriter) (s : State) : (modWriter f s).outputs = s.outputs := rfl
@[simp] theorem modWriter_freeCount (f : ReportWriter → ReportWriter) (s : State) : (modWriter f s).freeCount = s.freeCount := rfl
@[simp] theorem modWriter_undone (f : ReportWriter → ReportWriter) (s : State) : (modWriter f s).undone = s.undone := rfl
@[simp] theorem modWriter_pending (f : ReportWriter → ReportWriter) (s : State) : (modWriter f s).pending = s.pending := rfl

/-! ## modEngine -/

@[simp] theorem modEngine_gantryTime (f : OrderEngine → OrderEngine) (s : State) : (modEngine f s).gantryTime = s.gantryTime := rfl
@[simp] theorem modEngine_tracks (f : OrderEngine → OrderEngine) (s : State) : (modEngine f s).tracks = s.tracks := rfl
@[simp] theorem modEngine_passages (f : OrderEngine → OrderEngine) (s : State) : (modEngine f s).passages = s.passages := rfl
@[simp] theorem modEngine_nextPassageId (f : OrderEngine → OrderEngine) (s : State) : (modEngine f s).nextPassageId = s.nextPassageId := rfl
@[simp] theorem modEngine_headMin (f : OrderEngine → OrderEngine) (s : State) : (modEngine f s).headMin = s.headMin := rfl
@[simp] theorem modEngine_headMax (f : OrderEngine → OrderEngine) (s : State) : (modEngine f s).headMax = s.headMax := rfl
@[simp] theorem modEngine_schedule (f : OrderEngine → OrderEngine) (s : State) : (modEngine f s).schedule = s.schedule := rfl
@[simp] theorem modEngine_dueTimer (f : OrderEngine → OrderEngine) (s : State) : (modEngine f s).dueTimer = s.dueTimer := rfl
@[simp] theorem modEngine_programs (f : OrderEngine → OrderEngine) (s : State) : (modEngine f s).programs = s.programs := rfl
@[simp] theorem modEngine_stations (f : OrderEngine → OrderEngine) (s : State) : (modEngine f s).stations = s.stations := rfl
@[simp] theorem modEngine_units (f : OrderEngine → OrderEngine) (s : State) : (modEngine f s).units = s.units := rfl
@[simp] theorem modEngine_waiting (f : OrderEngine → OrderEngine) (s : State) : (modEngine f s).waiting = s.waiting := rfl
@[simp] theorem modEngine_openExposures (f : OrderEngine → OrderEngine) (s : State) : (modEngine f s).openExposures = s.openExposures := rfl
@[simp] theorem modEngine_lingering (f : OrderEngine → OrderEngine) (s : State) : (modEngine f s).lingering = s.lingering := rfl
@[simp] theorem modEngine_ports (f : OrderEngine → OrderEngine) (s : State) : (modEngine f s).ports = s.ports := rfl
@[simp] theorem modEngine_mover (f : OrderEngine → OrderEngine) (s : State) : (modEngine f s).mover = s.mover := rfl
@[simp] theorem modEngine_writer (f : OrderEngine → OrderEngine) (s : State) : (modEngine f s).writer = s.writer := rfl
@[simp] theorem modEngine_engine (f : OrderEngine → OrderEngine) (s : State) : (modEngine f s).engine = f s.engine := rfl
@[simp] theorem modEngine_base (f : OrderEngine → OrderEngine) (s : State) : (modEngine f s).base = s.base := rfl
@[simp] theorem modEngine_stagedLow (f : OrderEngine → OrderEngine) (s : State) : (modEngine f s).stagedLow = s.stagedLow := rfl
@[simp] theorem modEngine_enables (f : OrderEngine → OrderEngine) (s : State) : (modEngine f s).enables = s.enables := rfl
@[simp] theorem modEngine_device (f : OrderEngine → OrderEngine) (s : State) : (modEngine f s).device = s.device := rfl
@[simp] theorem modEngine_failReason (f : OrderEngine → OrderEngine) (s : State) : (modEngine f s).failReason = s.failReason := rfl
@[simp] theorem modEngine_routingLimit (f : OrderEngine → OrderEngine) (s : State) : (modEngine f s).routingLimit = s.routingLimit := rfl
@[simp] theorem modEngine_routing (f : OrderEngine → OrderEngine) (s : State) : (modEngine f s).routing = s.routing := rfl
@[simp] theorem modEngine_latches (f : OrderEngine → OrderEngine) (s : State) : (modEngine f s).latches = s.latches := rfl
@[simp] theorem modEngine_mem (f : OrderEngine → OrderEngine) (s : State) : (modEngine f s).mem = s.mem := rfl
@[simp] theorem modEngine_readErrors (f : OrderEngine → OrderEngine) (s : State) : (modEngine f s).readErrors = s.readErrors := rfl
@[simp] theorem modEngine_writeErrors (f : OrderEngine → OrderEngine) (s : State) : (modEngine f s).writeErrors = s.writeErrors := rfl
@[simp] theorem modEngine_outputs (f : OrderEngine → OrderEngine) (s : State) : (modEngine f s).outputs = s.outputs := rfl
@[simp] theorem modEngine_freeCount (f : OrderEngine → OrderEngine) (s : State) : (modEngine f s).freeCount = s.freeCount := rfl
@[simp] theorem modEngine_undone (f : OrderEngine → OrderEngine) (s : State) : (modEngine f s).undone = s.undone := rfl
@[simp] theorem modEngine_pending (f : OrderEngine → OrderEngine) (s : State) : (modEngine f s).pending = s.pending := rfl

/-! ## emit -/

@[simp] theorem emit_gantryTime (o : Output) (s : State) : (emit o s).gantryTime = s.gantryTime := rfl
@[simp] theorem emit_tracks (o : Output) (s : State) : (emit o s).tracks = s.tracks := rfl
@[simp] theorem emit_passages (o : Output) (s : State) : (emit o s).passages = s.passages := rfl
@[simp] theorem emit_nextPassageId (o : Output) (s : State) : (emit o s).nextPassageId = s.nextPassageId := rfl
@[simp] theorem emit_headMin (o : Output) (s : State) : (emit o s).headMin = s.headMin := rfl
@[simp] theorem emit_headMax (o : Output) (s : State) : (emit o s).headMax = s.headMax := rfl
@[simp] theorem emit_schedule (o : Output) (s : State) : (emit o s).schedule = s.schedule := rfl
@[simp] theorem emit_dueTimer (o : Output) (s : State) : (emit o s).dueTimer = s.dueTimer := rfl
@[simp] theorem emit_programs (o : Output) (s : State) : (emit o s).programs = s.programs := rfl
@[simp] theorem emit_stations (o : Output) (s : State) : (emit o s).stations = s.stations := rfl
@[simp] theorem emit_units (o : Output) (s : State) : (emit o s).units = s.units := rfl
@[simp] theorem emit_waiting (o : Output) (s : State) : (emit o s).waiting = s.waiting := rfl
@[simp] theorem emit_openExposures (o : Output) (s : State) : (emit o s).openExposures = s.openExposures := rfl
@[simp] theorem emit_lingering (o : Output) (s : State) : (emit o s).lingering = s.lingering := rfl
@[simp] theorem emit_ports (o : Output) (s : State) : (emit o s).ports = s.ports := rfl
@[simp] theorem emit_mover (o : Output) (s : State) : (emit o s).mover = s.mover := rfl
@[simp] theorem emit_writer (o : Output) (s : State) : (emit o s).writer = s.writer := rfl
@[simp] theorem emit_engine (o : Output) (s : State) : (emit o s).engine = s.engine := rfl
@[simp] theorem emit_base (o : Output) (s : State) : (emit o s).base = s.base := rfl
@[simp] theorem emit_stagedLow (o : Output) (s : State) : (emit o s).stagedLow = s.stagedLow := rfl
@[simp] theorem emit_enables (o : Output) (s : State) : (emit o s).enables = s.enables := rfl
@[simp] theorem emit_device (o : Output) (s : State) : (emit o s).device = s.device := rfl
@[simp] theorem emit_failReason (o : Output) (s : State) : (emit o s).failReason = s.failReason := rfl
@[simp] theorem emit_routingLimit (o : Output) (s : State) : (emit o s).routingLimit = s.routingLimit := rfl
@[simp] theorem emit_routing (o : Output) (s : State) : (emit o s).routing = s.routing := rfl
@[simp] theorem emit_latches (o : Output) (s : State) : (emit o s).latches = s.latches := rfl
@[simp] theorem emit_mem (o : Output) (s : State) : (emit o s).mem = s.mem := rfl
@[simp] theorem emit_readErrors (o : Output) (s : State) : (emit o s).readErrors = s.readErrors := rfl
@[simp] theorem emit_writeErrors (o : Output) (s : State) : (emit o s).writeErrors = s.writeErrors := rfl
@[simp] theorem emit_outputs (o : Output) (s : State) : (emit o s).outputs = s.outputs ++ [o] := rfl
@[simp] theorem emit_freeCount (o : Output) (s : State) : (emit o s).freeCount = s.freeCount := rfl
@[simp] theorem emit_undone (o : Output) (s : State) : (emit o s).undone = s.undone := rfl
@[simp] theorem emit_pending (o : Output) (s : State) : (emit o s).pending = s.pending := rfl

/-! ## An element of a table after its update -/

@[simp] theorem getElem_tracks_modTrack (t : TrackId) (f : TrackUnit → TrackUnit) (s : State) :
    (modTrack t f s).tracks[t] = f s.tracks[t] := by simp

@[simp] theorem getElem_passages_setPassage (k : ContextId) (p : Option Passage) (s : State) :
    (setPassage k p s).passages[k] = p := by simp

@[simp] theorem getElem_stations_modStation (st : StationId) (f : Station → Station) (s : State) :
    (modStation st f s).stations[st] = f s.stations[st] := by simp

@[simp] theorem getElem_units_modUnit (u : UnitId) (f : StrobeUnit → StrobeUnit) (s : State) :
    (modUnit u f s).units[u] = f s.units[u] := by simp

@[simp] theorem getElem_ports_modPort (st : StationId) (f : Port → Port) (s : State) :
    (modPort st f s).ports[st] = f s.ports[st] := by simp

@[simp] theorem getElem_openExposures_setOpenExposure (st : StationId) (e : Option OpenExposure) (s : State) :
    (setOpenExposure st e s).openExposures[st] = e := by simp

/-- Another track is left alone. -/
theorem getElem_tracks_modTrack_of_ne {t q : TrackId} (f : TrackUnit → TrackUnit) (s : State) (h : t ≠ q) :
    (modTrack t f s).tracks[q] = s.tracks[q] := by
  have : t.val ≠ q.val := fun e => h (Fin.ext e)
  simp [this]

/-- Another station is left alone. -/
theorem getElem_stations_modStation_of_ne {st q : StationId} (f : Station → Station) (s : State) (h : st ≠ q) :
    (modStation st f s).stations[q] = s.stations[q] := by
  have : st.val ≠ q.val := fun e => h (Fin.ext e)
  simp [this]

/-- Another unit is left alone. -/
theorem getElem_units_modUnit_of_ne {u q : UnitId} (f : StrobeUnit → StrobeUnit) (s : State) (h : u ≠ q) :
    (modUnit u f s).units[q] = s.units[q] := by
  have : u.val ≠ q.val := fun e => h (Fin.ext e)
  simp [this]

/-- Another port is left alone. -/
theorem getElem_ports_modPort_of_ne {st q : StationId} (f : Port → Port) (s : State) (h : st ≠ q) :
    (modPort st f s).ports[q] = s.ports[q] := by
  have : st.val ≠ q.val := fun e => h (Fin.ext e)
  simp [this]

end Sys2Proof.Machine
end

