-- ==== Sys2Proof/Laws/Memory.lean ====
section
/-! SUPPORT. Host memory: what a write does to a read, and that every memory operation keeps the canonical form. -/

namespace Sys2Proof.Machine

open Sys2Proof

/-! ## One byte -/

/-- A canonical list from a higher address is canonical from a lower one. -/
theorem Memory.wfFrom_mono {lo lo' : Nat} (h : lo ≤ lo') : ∀ {m : Memory}, Memory.wfFrom lo' m = true →
    Memory.wfFrom lo m = true
  | [], _ => rfl
  | c :: rest, hm => by
    simp only [Memory.wfFrom, Bool.and_eq_true, decide_eq_true_eq] at hm ⊢
    exact ⟨⟨Nat.le_trans h hm.1.1, hm.1.2⟩, hm.2⟩

/-- Below the first address of a canonical list every address is unlisted. -/
theorem Memory.read_below {lo a : Nat} (ha : a < lo) : ∀ {m : Memory}, Memory.wfFrom lo m = true →
    Memory.read m a = Memory.blank
  | [], _ => rfl
  | c :: rest, hm => by
    simp only [Memory.wfFrom, Bool.and_eq_true, decide_eq_true_eq] at hm
    have hne : c.1 ≠ a := by omega
    simp only [Memory.read, hne, if_false]
    exact Memory.read_below (lo := c.1 + 1) (by omega) hm.2

/-- A write keeps the canonical form from any bound at or below its address. -/
theorem Memory.wfFrom_write {lo a : Nat} (b : Byte) (ha : lo ≤ a) : ∀ {m : Memory}, Memory.wfFrom lo m = true →
    Memory.wfFrom lo (Memory.write m a b) = true
  | [], _ => by
    unfold Memory.write
    split
    · rfl
    · next h => simp [Memory.wfFrom, ha, h]
  | c :: rest, hm => by
    simp only [Memory.wfFrom, Bool.and_eq_true, decide_eq_true_eq, Bool.not_eq_true', decide_eq_false_iff_not] at hm
    obtain ⟨⟨hlo, hc⟩, hrest⟩ := hm
    unfold Memory.write
    split
    · next hlt =>
      split
      · simp [Memory.wfFrom, hlo, hc, hrest]
      · next hb =>
        have : a + 1 ≤ c.1 := hlt
        simp [Memory.wfFrom, ha, hb, this, hc, hrest]
    · split
      · next hge heq =>
        split
        · exact Memory.wfFrom_mono (by omega) hrest
        · next hb => subst heq; simp [Memory.wfFrom, ha, hb, hrest]
      · next hge hne =>
        have : c.1 + 1 ≤ a := by omega
        simp [Memory.wfFrom, hlo, hc, Memory.wfFrom_write b this hrest]

/-- A write keeps the canonical form. -/
theorem Memory.wf_write {m : Memory} (a : Nat) (b : Byte) (h : Memory.wf m = true) :
    Memory.wf (Memory.write m a b) = true :=
  Memory.wfFrom_write b (Nat.zero_le a) h

/-- After a write, a read gives the byte written at its address and what it gave before elsewhere. -/
theorem Memory.read_writeFrom {lo a x : Nat} (b : Byte) : ∀ {m : Memory}, Memory.wfFrom lo m = true →
    Memory.read (Memory.write m a b) x = if x = a then b else Memory.read m x
  | [], _ => by
    unfold Memory.write
    split
    · next h => subst h; simp [Memory.read]
    · simp [Memory.read, eq_comm]
  | c :: rest, hm => by
    simp only [Memory.wfFrom, Bool.and_eq_true, decide_eq_true_eq] at hm
    have hrest := hm.2
    unfold Memory.write
    split
    · next hlt =>
      split
      · next hb =>
        split
        · next hx =>
          subst hx hb
          have h1 : c.1 ≠ x := by omega
          simp only [Memory.read, h1, if_false]
          exact Memory.read_below (lo := c.1 + 1) (by omega) hrest
        · rfl
      · simp only [Memory.read, eq_comm]
    · split
      · next hge heq =>
        subst heq
        split
        · next hb =>
          split
          · next hx =>
            subst hx hb
            exact Memory.read_below (lo := c.1 + 1) (by omega) hrest
          · next hx => simp [Memory.read, Ne.symm hx]
        · simp only [Memory.read]
          split
          · next h => simp [h]
          · next h => simp [Ne.symm h]
      · next hge hne =>
        simp only [Memory.read, Memory.read_writeFrom b hrest]
        split
        · next h =>
          have : x ≠ a := by omega
          simp [this]
        · rfl

/-- A read after a write to a canonical memory. -/
theorem Memory.read_write {m : Memory} (a x : Nat) (b : Byte) (h : Memory.wf m = true) :
    Memory.read (Memory.write m a b) x = if x = a then b else Memory.read m x :=
  Memory.read_writeFrom b h

/-! ## Runs of bytes -/

theorem Memory.wf_writeCells {m : Memory} (cells : List Host.Cell) (h : Memory.wf m = true) :
    Memory.wf (Memory.writeCells m cells) = true := by
  unfold Memory.writeCells
  induction cells generalizing m with
  | nil => exact h
  | cons c rest ih => exact ih (Memory.wf_write _ _ h)

/-- Cells written one after the other: an address reads as the last cell that names it, any other as before. -/
theorem Memory.read_writeCells (cells : List Host.Cell) : ∀ {m : Memory}, Memory.wf m = true →
    (∀ before x v after, cells = before ++ (x, v) :: after → (∀ c ∈ after, c.1 ≠ x) →
      Memory.read (Memory.writeCells m cells) x = v) ∧
    (∀ x, (∀ c ∈ cells, c.1 ≠ x) → Memory.read (Memory.writeCells m cells) x = Memory.read m x) := by
  induction cells with
  | nil => intro m _; exact ⟨fun b x v a h => by simp at h, fun _ _ => rfl⟩
  | cons c cells ih =>
    intro m hm
    obtain ⟨i1, i2⟩ := ih (Memory.wf_write c.1 c.2 hm)
    refine ⟨fun b x v a h hx => ?_, fun x hx => ?_⟩
    · cases b with
      | nil =>
        simp only [List.nil_append, List.cons.injEq] at h
        obtain ⟨rfl, rfl⟩ := h
        exact (i2 x hx).trans ((Memory.read_write _ _ _ hm).trans (if_pos rfl))
      | cons b0 b =>
        simp only [List.cons_append, List.cons.injEq] at h
        exact i1 b x v a h.2 hx
    · refine (i2 x fun c hc => hx c (List.mem_cons_of_mem _ hc)).trans ((Memory.read_write _ _ _ hm).trans (if_neg ?_))
      exact fun e => hx c List.mem_cons_self e.symm

theorem Memory.wf_writeUntilError {m : Memory} (errors : List Nat) (a : Addr) (bytes : List Byte)
    (h : Memory.wf m = true) : Memory.wf (Memory.writeUntilError errors m a bytes).1 = true := by
  induction bytes generalizing m a with
  | nil => exact h
  | cons b bs ih =>
    unfold Memory.writeUntilError
    split
    · exact h
    · exact ih _ (Memory.wf_write _ _ h)

/-- No more bytes land than there are. -/
theorem Memory.writeUntilError_le (errors : List Nat) (m : Memory) (a : Addr) (bytes : List Byte) :
    (Memory.writeUntilError errors m a bytes).2 ≤ bytes.length := by
  induction bytes generalizing m a with
  | nil => simp [Memory.writeUntilError]
  | cons b bs ih =>
    unfold Memory.writeUntilError
    split
    · simp
    · have := ih (Memory.write m a.toNat b) (a + 1)
      simp only [List.length_cons]
      omega

/-- With no bus error every byte lands. -/
theorem Memory.writeUntilError_nil (m : Memory) (a : Addr) (bytes : List Byte) :
    (Memory.writeUntilError [] m a bytes).2 = bytes.length := by
  induction bytes generalizing m a with
  | nil => rfl
  | cons b bs ih => simp [Memory.writeUntilError, ih]

/-! ## Operations of the state -/

/-- The memory of a state is canonical. -/
def MemOk (s : State) : Prop := Memory.wf s.mem = true

theorem memOk_reset : MemOk State.reset := rfl

/-- An update that leaves memory alone keeps it canonical. -/
theorem MemOk.of_mem_eq {s t : State} (h : t.mem = s.mem) (hs : MemOk s) : MemOk t := by
  unfold MemOk at *; rw [h]; exact hs

theorem memOk_busWrite {s : State} (a : Addr) (bytes : List Byte) (h : MemOk s) : MemOk (busWrite a bytes s).1 := by
  unfold MemOk busWrite
  exact Memory.wf_writeUntilError _ _ _ h

theorem memOk_arrive {s : State} (m : Moment) (h : MemOk s) : MemOk (arrive m s) :=
  Memory.wf_writeCells _ h

@[simp] theorem withIrq_mem (f : State → State) (s : State) : (withIrq f s).mem = (f s).mem := by
  unfold withIrq; split <;> rfl

@[simp] theorem latchOrders_mem (s : State) : (latchOrders s).mem = s.mem := by simp [latchOrders]
@[simp] theorem latchDry_mem (s : State) : (latchDry s).mem = s.mem := by simp [latchDry]
@[simp] theorem latchFault_mem (s : State) : (latchFault s).mem = s.mem := by simp [latchFault]
@[simp] theorem latchFailed_mem (s : State) : (latchFailed s).mem = s.mem := by simp [latchFailed]
@[simp] theorem setEnables_mem (e : BitVec 5) (s : State) : (setEnables e s).mem = s.mem := by simp [setEnables]

end Sys2Proof.Machine
end

