-- ==== Sys2Proof/Laws/Bus.lean ====
section
/-! SUPPORT. What a bus write and the landing of a list of writes leave in host memory: the bytes written, up to the first
address that answers with an error, and every other address as before. -/

namespace Sys2Proof.Machine

open Sys2Proof

/-! ## Addresses -/

theorem offsetAddr_zero (a : Addr) : offsetAddr a 0 = a := by simp [offsetAddr]

theorem offsetAddr_offsetAddr (a : Addr) (i j : Nat) : offsetAddr (offsetAddr a i) j = offsetAddr a (i + j) := by
  unfold offsetAddr
  rw [BitVec.ofNat_add, BitVec.add_assoc]

theorem offsetAddr_succ (a : Addr) (i : Nat) : offsetAddr (a + 1) i = offsetAddr a (i + 1) := by
  unfold offsetAddr
  rw [BitVec.ofNat_add, BitVec.add_assoc, BitVec.add_comm (1 : Addr)]
  rfl

theorem offsetAddr_inj (a : Addr) {i j : Nat} (hi : i < 2 ^ 64) (hj : j < 2 ^ 64)
    (h : (offsetAddr a i).toNat = (offsetAddr a j).toNat) : i = j := by
  unfold offsetAddr at h
  simp only [BitVec.toNat_add, BitVec.toNat_ofNat] at h
  have := a.isLt
  omega

/-- Offsets of one address lie apart where their numbers do. -/
theorem outside_offsetAddr (a : Addr) {i j n : Nat} (hi : i < 2 ^ 64) (hj : j + n ≤ 2 ^ 64)
    (h : ∀ k, k < n → i ≠ j + k) : outside (offsetAddr a i).toNat (offsetAddr a j) n := by
  intro k hk he
  rw [offsetAddr_offsetAddr] at he
  exact h k hk (offsetAddr_inj a hi (by omega) he)

/-! ## Bytes written upward -/

/-- Bytes written from an address upward land up to the first address the bus answers with an error. -/
theorem Memory.writeUntilError_spec (errors : List Nat) (bytes : List Byte) : ∀ (n : Nat) (m : Memory) (a : Addr),
    Memory.wf m = true → bytes.length ≤ 2 ^ 64 → n ≤ bytes.length →
    (∀ i, i < n → (offsetAddr a i).toNat ∉ errors) →
    (n < bytes.length → (offsetAddr a n).toNat ∈ errors) →
    let r := Memory.writeUntilError errors m a bytes
    r.2 = n ∧ (∀ i, i < n → Memory.read r.1 (offsetAddr a i).toNat = bytes.getD i 0) ∧
      ∀ x, outside x a n → Memory.read r.1 x = Memory.read m x := by
  induction bytes with
  | nil =>
    intro n m a _ _ hn _ _
    have : n = 0 := Nat.le_zero.1 hn
    subst this
    exact ⟨rfl, fun i h => absurd h (Nat.not_lt_zero _), fun _ _ => rfl⟩
  | cons b bs ih =>
    intro n m a hm hl hn hok hbad
    simp only [List.length_cons] at hl hn hbad
    cases n with
    | zero =>
      have hb := hbad (Nat.succ_pos _)
      rw [offsetAddr_zero] at hb
      have he : Memory.writeUntilError errors m a (b :: bs) = (m, 0) := by
        rw [Memory.writeUntilError, if_pos (List.contains_iff_mem.2 hb)]
      rw [he]
      exact ⟨rfl, fun i h => absurd h (Nat.not_lt_zero _), fun _ _ => rfl⟩
    | succ n =>
      have h0 := hok 0 (Nat.succ_pos _)
      rw [offsetAddr_zero] at h0
      obtain ⟨r1, r2, r3⟩ := ih n (Memory.write m a.toNat b) (a + 1) (Memory.wf_write _ _ hm) (by omega) (by omega)
        (fun i hi => by rw [offsetAddr_succ]; exact hok (i + 1) (by omega))
        (fun h => by rw [offsetAddr_succ]; exact hbad (by omega))
      have he : Memory.writeUntilError errors m a (b :: bs) =
          ((Memory.writeUntilError errors (Memory.write m a.toNat b) (a + 1) bs).1,
           (Memory.writeUntilError errors (Memory.write m a.toNat b) (a + 1) bs).2 + 1) := by
        rw [Memory.writeUntilError, if_neg (fun h => h0 (List.contains_iff_mem.1 h))]
      rw [he]
      refine ⟨congrArg (· + 1) r1, fun i hi => ?_, fun x hx => ?_⟩
      · cases i with
        | zero =>
          rw [offsetAddr_zero, r3 a.toNat (fun j hj h => ?_), Memory.read_write _ _ _ hm, if_pos rfl]
          · rfl
          · rw [offsetAddr_succ] at h
            have h : (offsetAddr a 0).toNat = (offsetAddr a (j + 1)).toNat := by rw [offsetAddr_zero]; exact h
            exact absurd (offsetAddr_inj a (by omega) (by omega) h) (by omega)
        | succ i =>
          have h := r2 i (by omega)
          rw [offsetAddr_succ] at h
          simpa using h
      · rw [r3 x (fun j hj h => hx (j + 1) (by omega) (by rw [← offsetAddr_succ]; exact h)),
          Memory.read_write _ _ _ hm, if_neg]
        intro h
        exact hx 0 (Nat.succ_pos _) (by rw [offsetAddr_zero]; exact h)

/-- A read of bytes that stand one after the other. -/
theorem busRead_of_reads {a : Addr} {bytes : List Byte} {t : State}
    (h : ∀ i, i < bytes.length → Memory.read t.mem (offsetAddr a i).toNat = bytes.getD i 0) :
    busRead a bytes.length t = bytes := by
  apply List.ext_getElem
  · simp [busRead]
  · intro i h1 h2
    rw [← List.getD_eq_getElem bytes 0 h2, ← h i h2]
    simp [busRead]

/-! ## A list of writes -/

/-- A list of writes that lands whole: memory stays canonical, what no write names reads as before, and each write's bytes
stand where no later write reaches. -/
theorem landRuns_spec (runs : List (Addr × List Byte)) (hb : ∀ q ∈ runs, q.2.length ≤ 2 ^ 64) :
    ∀ (n : Nat) (s : State), Memory.wf s.mem = true → runsLength runs ≤ n →
    let t := landRuns runs n s
    Memory.wf t.mem = true ∧
    (∀ x, (∀ q ∈ runs, outside x q.1 q.2.length) → Memory.read t.mem x = Memory.read s.mem x) ∧
    (∀ before r after, runs = before ++ r :: after →
      (∀ i, i < r.2.length → ∀ q ∈ after, outside (offsetAddr r.1 i).toNat q.1 q.2.length) →
      ∀ i, i < r.2.length → Memory.read t.mem (offsetAddr r.1 i).toNat = r.2.getD i 0) := by
  induction runs with
  | nil => intro n s hm _; exact ⟨hm, fun _ _ => rfl, fun b r a h => by simp at h⟩
  | cons r rest ih =>
    intro n s hm hn
    have hn' : r.2.length + runsLength rest ≤ n := by simpa [runsLength] using hn
    have hb' : ∀ q ∈ rest, q.2.length ≤ 2 ^ 64 := fun q hq => hb q (List.mem_cons_of_mem _ hq)
    by_cases h0 : n = 0
    · have hall : ∀ q ∈ r :: rest, q.2.length = 0 := by
        intro q hq
        rcases List.mem_cons.1 hq with h | h
        · rw [h]; omega
        · have hs := List.sum_eq_zero_iff.1 (show (rest.map fun r => r.2.length).sum = 0 from
            (show runsLength rest = 0 by omega))
          exact hs _ (List.mem_map.2 ⟨q, h, rfl⟩)
      have he : landRuns (r :: rest) n s = s := by rw [landRuns, if_pos h0]
      rw [he]
      refine ⟨hm, fun _ _ => rfl, fun b q a h _ i hi => ?_⟩
      have : q.2.length = 0 := hall q (by rw [h]; simp)
      omega
    · have ht : r.2.take n = r.2 := List.take_of_length_le (by omega)
      have he : landRuns (r :: rest) n s = landRuns rest (n - r.2.length)
          (emit (.hostWrite r.1 r.2) { s with mem := (Memory.writeUntilError [] s.mem r.1 r.2).1 }) := by
        rw [landRuns, if_neg h0, ht]
      rw [he]
      obtain ⟨i1, i2, i3⟩ := ih hb' (n - r.2.length)
        (emit (.hostWrite r.1 r.2) { s with mem := (Memory.writeUntilError [] s.mem r.1 r.2).1 })
        (Memory.wf_writeUntilError _ _ _ hm) (by omega)
      obtain ⟨_, w2, w3⟩ := Memory.writeUntilError_spec [] r.2 r.2.length s.mem r.1 hm (hb r List.mem_cons_self) le_rfl
        (fun _ _ h => nomatch h) (fun h => absurd h (lt_irrefl _))
      refine ⟨i1, fun x hx => ?_, fun b q a h hd i hi => ?_⟩
      · rw [i2 x (fun q hq => hx q (List.mem_cons_of_mem _ hq))]
        exact w3 x (hx r List.mem_cons_self)
      · cases b with
        | nil =>
          simp only [List.nil_append, List.cons.injEq] at h
          obtain ⟨rfl, rfl⟩ := h
          rw [i2 _ (fun q hq => hd i hi q hq)]
          exact w2 i hi
        | cons b0 b =>
          simp only [List.cons_append, List.cons.injEq] at h
          exact i3 b q a h.2 hd i hi

/-- The bytes of one write, each with its address. -/
def runCells (r : Addr × List Byte) : List Host.Cell :=
  (List.range r.2.length).map fun i => ((offsetAddr r.1 i).toNat, r.2.getD i 0)

theorem runCells_cons (a : Addr) (b : Byte) (bs : List Byte) :
    runCells (a, b :: bs) = (a.toNat, b) :: runCells (a + 1, bs) := by
  simp only [runCells, List.length_cons, List.range_succ_eq_map, List.map_cons, List.map_map, offsetAddr_zero]
  refine congrArg₂ _ rfl (List.map_congr_left fun i _ => ?_)
  simp only [Function.comp_apply, List.getD_cons_succ, ← offsetAddr_succ]

theorem runCells_length (r : Addr × List Byte) : (runCells r).length = r.2.length := by simp [runCells]

theorem runCells_take (r : Addr × List Byte) (n : Nat) : runCells (r.1, r.2.take n) = (runCells r).take n := by
  obtain ⟨a, bs⟩ := r
  induction bs generalizing a n with
  | nil => simp [runCells]
  | cons b bs ih =>
    cases n with
    | zero => simp [runCells]
    | succ n => rw [runCells_cons, List.take_succ_cons, List.take_succ_cons, runCells_cons]; exact congrArg _ (ih n (a + 1))

/-- Without a bus error a write lands as its bytes. -/
theorem Memory.writeUntilError_cells (m : Memory) (a : Addr) (bytes : List Byte) :
    (Memory.writeUntilError [] m a bytes).1 = Memory.writeCells m (runCells (a, bytes)) := by
  induction bytes generalizing m a with
  | nil => rfl
  | cons b bs ih => rw [runCells_cons]; exact ih _ _

/-- Of a list of writes the first `n` bytes land, in their order (R140, R141, R154). -/
theorem landRuns_mem (runs : List (Addr × List Byte)) (n : Nat) (s : State) :
    (landRuns runs n s).mem = Memory.writeCells s.mem ((runs.flatMap runCells).take n) := by
  induction runs generalizing n s with
  | nil => simp [landRuns, Memory.writeCells]
  | cons r rest ih =>
    unfold landRuns
    split
    · next h => subst h; rfl
    · rw [ih]
      show Memory.writeCells (Memory.writeUntilError [] s.mem r.1 (r.2.take n)).1 _ = _
      rw [Memory.writeUntilError_cells, runCells_take, List.flatMap_cons, List.take_append, runCells_length]
      unfold Memory.writeCells
      rw [List.foldl_append]

end Sys2Proof.Machine
end

