-- ==== Sys2Proof/Laws/Report.lean ====
section
/-! SUPPORT. What handing a record to the writer and raising a cause can do: they touch host memory, the outputs, the
writer, the latches and the free counter, or they take the device into FAILED; they keep memory canonical. -/

namespace Sys2Proof.Machine

open Sys2Proof

/-- `t` differs from `s` in host memory, outputs, report writer, latches and free counter at most. -/
def Reports (s t : State) : Prop :=
  t = { s with mem := t.mem, outputs := t.outputs, writer := t.writer, latches := t.latches, freeCount := t.freeCount }

theorem Reports.refl (s : State) : Reports s s := rfl

theorem Reports.trans {s t u : State} (h₁ : Reports s t) (h₂ : Reports t u) : Reports s u := by
  unfold Reports at *
  cases s; cases t; cases u
  simp only [State.mk.injEq] at *
  simp_all

theorem Reports.gantryTime {s t : State} (h : Reports s t) : t.gantryTime = s.gantryTime := by rw [h]
theorem Reports.tracks {s t : State} (h : Reports s t) : t.tracks = s.tracks := by rw [h]
theorem Reports.passages {s t : State} (h : Reports s t) : t.passages = s.passages := by rw [h]
theorem Reports.nextPassageId {s t : State} (h : Reports s t) : t.nextPassageId = s.nextPassageId := by rw [h]
theorem Reports.headMin {s t : State} (h : Reports s t) : t.headMin = s.headMin := by rw [h]
theorem Reports.headMax {s t : State} (h : Reports s t) : t.headMax = s.headMax := by rw [h]
theorem Reports.schedule {s t : State} (h : Reports s t) : t.schedule = s.schedule := by rw [h]
theorem Reports.dueTimer {s t : State} (h : Reports s t) : t.dueTimer = s.dueTimer := by rw [h]
theorem Reports.programs {s t : State} (h : Reports s t) : t.programs = s.programs := by rw [h]
theorem Reports.stations {s t : State} (h : Reports s t) : t.stations = s.stations := by rw [h]
theorem Reports.units {s t : State} (h : Reports s t) : t.units = s.units := by rw [h]
theorem Reports.waiting {s t : State} (h : Reports s t) : t.waiting = s.waiting := by rw [h]
theorem Reports.openExposures {s t : State} (h : Reports s t) : t.openExposures = s.openExposures := by rw [h]
theorem Reports.lingering {s t : State} (h : Reports s t) : t.lingering = s.lingering := by rw [h]
theorem Reports.ports {s t : State} (h : Reports s t) : t.ports = s.ports := by rw [h]
theorem Reports.mover {s t : State} (h : Reports s t) : t.mover = s.mover := by rw [h]
theorem Reports.engine {s t : State} (h : Reports s t) : t.engine = s.engine := by rw [h]
theorem Reports.base {s t : State} (h : Reports s t) : t.base = s.base := by rw [h]
theorem Reports.stagedLow {s t : State} (h : Reports s t) : t.stagedLow = s.stagedLow := by rw [h]
theorem Reports.enables {s t : State} (h : Reports s t) : t.enables = s.enables := by rw [h]
theorem Reports.device {s t : State} (h : Reports s t) : t.device = s.device := by rw [h]
theorem Reports.failReason {s t : State} (h : Reports s t) : t.failReason = s.failReason := by rw [h]
theorem Reports.routingLimit {s t : State} (h : Reports s t) : t.routingLimit = s.routingLimit := by rw [h]
theorem Reports.routing {s t : State} (h : Reports s t) : t.routing = s.routing := by rw [h]
theorem Reports.readErrors {s t : State} (h : Reports s t) : t.readErrors = s.readErrors := by rw [h]
theorem Reports.writeErrors {s t : State} (h : Reports s t) : t.writeErrors = s.writeErrors := by rw [h]
theorem Reports.undone {s t : State} (h : Reports s t) : t.undone = s.undone := by rw [h]
theorem Reports.pending {s t : State} (h : Reports s t) : t.pending = s.pending := by rw [h]

/-! ## The writer -/

theorem reports_emit (o : Output) (s : State) : Reports s (emit o s) := rfl
theorem reports_modWriter (f : ReportWriter → ReportWriter) (s : State) : Reports s (modWriter f s) := rfl
theorem reports_busWrite (a : Addr) (bytes : List Byte) (s : State) : Reports s (busWrite a bytes s).1 := rfl
theorem reports_takeFreeBit (s : State) : Reports s (takeFreeBit s).2 := rfl

/-- A change that only reports still only reports with the interrupt message it may send. -/
theorem reports_withIrq {f : State → State} (hf : ∀ s, Reports s (f s)) (s : State) : Reports s (withIrq f s) := by
  unfold withIrq
  split
  · exact (hf s).trans (reports_emit _ _)
  · exact hf s

theorem reports_latchFault (s : State) : Reports s (latchFault s) := by
  apply reports_withIrq; intro s; rfl
theorem reports_latchOrders (s : State) : Reports s (latchOrders s) := by
  apply reports_withIrq; intro s; rfl
theorem reports_latchDry (s : State) : Reports s (latchDry s) := by
  apply reports_withIrq; intro s; rfl

theorem reports_appendNotice (row : RowId) (s : State) : Reports s (appendNotice row s).1 := by
  unfold appendNotice
  split
  · exact .refl s
  · split
    · exact reports_withIrq (reports_modWriter _) s
    · split
      · exact .refl s
      · rfl

theorem reports_setMem (m : Memory) (s : State) : Reports s { s with mem := m } := by rfl

theorem reports_writeRows (kind lost : Nat) (sequence : BitVec 32) (rows : List (RowId × List Byte)) (part : Nat)
    (unqueued : Option RowId) (s : State) : Reports s (writeRows kind lost sequence rows part unqueued s).1 := by
  induction rows generalizing part unqueued s with
  | nil => exact .refl s
  | cons r rest ih =>
    unfold writeRows
    dsimp only
    have h1 := reports_busWrite (offsetAddr (rowAddr r.1 s) 1) (rowBytes kind part lost sequence r.2) s
    generalize busWrite (offsetAddr (rowAddr r.1 s) 1) (rowBytes kind part lost sequence r.2) s = p1 at h1 ⊢
    have h2 := reports_busWrite (rowAddr r.1 s) [1] p1.1
    generalize busWrite (rowAddr r.1 s) [1] p1.1 = p2 at h2 ⊢
    have h3 := reports_takeFreeBit p2.1
    generalize takeFreeBit p2.1 = p3 at h3 ⊢
    split
    · split
      · exact h1.trans (h2.trans ((reports_appendNotice _ _).trans (ih _ _ _)))
      · split
        · exact h1.trans (h2.trans (h3.trans (reports_setMem _ _)))
        · exact h1.trans (h2.trans h3)
    · exact h1

theorem reports_writeRecord (r : Record) (s : State) : Reports s (writeRecord r s).1 := by
  unfold writeRecord
  dsimp only
  split
  · exact reports_writeRows _ _ _ _ _ _ s
  · exact (reports_writeRows _ _ _ _ _ _ s).trans (by rfl)

theorem reports_holdRecord (r : Record) (full : Option RowId) (s : State) : Reports s (holdRecord r full s).1 := by
  unfold holdRecord
  split
  · rfl
  · split
    · exact .refl s
    · rfl

/-- Placing a record touches nothing but what it reports with. -/
theorem reports_placeOnce (r : Record) (s : State) : Reports s (placeOnce r s).1 := by
  unfold placeOnce placeInRows
  split
  · exact .refl s
  · split
    · exact reports_holdRecord r none s
    · split
      · exact .refl s
      · exact reports_holdRecord r _ s
      · exact reports_writeRecord r s

/-! ## Causes -/

/-- In FAILED a cause is discarded (R202). -/
theorem raiseTo_of_failed (n : Nat) (c : Cause) {s : State} (h : s.device = .failed) : raiseTo n c s = s := by
  cases n with
  | zero => rfl
  | succ n => simp [raiseTo, h]

theorem foldl_raiseTo_of_failed (n : Nat) (cs : List Cause) {s : State} (h : s.device = .failed) :
    cs.foldl (fun s c => raiseTo n c s) s = s := by
  induction cs with
  | nil => rfl
  | cons c cs ih => rw [List.foldl_cons, raiseTo_of_failed n c h]; exact ih

theorem stopCardWrite_device (whole : Bool) (s : State) : (stopCardWrite whole s).device = s.device := by
  have land : ∀ runs n (s : State), (landRuns runs n s).device = s.device := by
    intro runs
    induction runs with
    | nil => intro n s; rfl
    | cons r rest ih =>
      intro n s
      unfold landRuns
      split
      · rfl
      · rw [ih]; rfl
  unfold stopCardWrite
  split
  · rfl
  · rw [land]; rfl

theorem withIrq_device (f : State → State) (s : State) : (withIrq f s).device = (f s).device := by
  unfold withIrq; split <;> rfl

/-- The entry into FAILED leaves the device FAILED. -/
theorem enterFailed_device (reason : FailReason) (s : State) : (enterFailed reason s).device = .failed := by
  unfold enterFailed
  split
  · next h => exact h
  · show (stopCardWrite true _).device = _
    rw [stopCardWrite_device]
    unfold latchFailed
    rw [withIrq_device]

/-- Causes raised one after the other, where each alone either fails the device or only reports. -/
theorem foldl_reports {n : Nat} (ih : ∀ (c : Cause) (s : State), (raiseTo n c s).device ≠ .failed →
    Reports s (raiseTo n c s)) (cs : List Cause) (s : State)
    (h : (cs.foldl (fun s c => raiseTo n c s) s).device ≠ .failed) :
    Reports s (cs.foldl (fun s c => raiseTo n c s) s) := by
  induction cs generalizing s with
  | nil => exact .refl s
  | cons c cs ihc =>
    rw [List.foldl_cons] at h ⊢
    have h1 : (raiseTo n c s).device ≠ .failed := by
      intro hf
      rw [foldl_raiseTo_of_failed n cs hf] at h
      exact h hf
    exact (ih c s h1).trans (ihc _ h)

/-- A cause that does not take the device into FAILED only reports. -/
theorem raiseTo_reports (n : Nat) (c : Cause) (s : State) (h : (raiseTo n c s).device ≠ .failed) :
    Reports s (raiseTo n c s) := by
  induction n generalizing c s with
  | zero => exact .refl s
  | succ n ih =>
    unfold raiseTo at h ⊢
    split
    · exact .refl s
    · split
      · next hd hf =>
        simp only [hd, hf, if_true, if_false] at h
        exact absurd (enterFailed_device _ s) h
      · next hd hf =>
        simp only [hd, hf, if_false] at h
        have key : ∀ t : State, t = (if (routeOf c.code s).note = true then
            (placeOnce (.faultNote (noteOf c s)) s).2.2.foldl (fun s c => raiseTo n c s)
              (placeOnce (.faultNote (noteOf c s)) s).1 else s) → t.device ≠ .failed → Reports s t := by
          intro t ht hne
          split at ht
          · rw [ht] at hne ⊢
            exact (reports_placeOnce _ s).trans (foldl_reports (fun c s => ih c s) _ _ hne)
          · rw [ht]; exact .refl s
        dsimp only
        split
        · next hs =>
          simp only [hs, if_true] at h
          refine (key _ rfl ?_).trans (reports_latchFault _)
          intro hf'
          apply h
          unfold latchFault
          rw [withIrq_device]
          exact hf'
        · next hs =>
          simp only [hs] at h
          exact key _ rfl h

/-- A cause raised without taking the device into FAILED only reports. -/
theorem raise_reports {c : Cause} {s : State} (h : (raise c s).device ≠ .failed) : Reports s (raise c s) :=
  raiseTo_reports 8 c s h

/-- In FAILED a cause changes nothing (R202). -/
theorem raise_of_failed (c : Cause) {s : State} (h : s.device = .failed) : raise c s = s := raiseTo_of_failed 8 c h

/-- A record handed unqueued without the device entering FAILED only reports. -/
theorem handRecord_reports {r : Record} {s : State} (h : (handRecord r s).1.device ≠ .failed) :
    Reports s (handRecord r s).1 :=
  (reports_placeOnce r s).trans (foldl_reports (fun c s => raiseTo_reports 8 c s) _ _ h)

end Sys2Proof.Machine
end

