-- ==== Sys2Proof/Laws/Causes.lean ====
section
/-! SUPPORT. How far the causes of one placement go (R170, R210, log 13): a fault note brings at most one further cause,
the depth of `raiseTo` and the length of `retryPass` cut nothing off, and so `raise` and `lookWriter` unfold to themselves. -/

namespace Sys2Proof.Machine

open Sys2Proof

/-! ## What a placement leaves in the writer -/

theorem withIrq_writer (f : State → State) (s : State) : (withIrq f s).writer = (f s).writer := by
  unfold withIrq; split <;> rfl

theorem latchFault_writer (s : State) : (latchFault s).writer = s.writer := by
  unfold latchFault; rw [withIrq_writer]

/-- Notice overflow is set and the notice queue full: no further row number can raise a cause. -/
def NoticesFull (w : ReportWriter) : Prop := w.overflow = true ∧ 64 ≤ w.notices.length

/-- What a row number at the notice queue leaves: nothing held; notice overflow as it was, or set at a full queue. -/
theorem appendNotice_writer (row : RowId) (s : State) :
    let q := appendNotice row s
    q.1.writer.held = s.writer.held ∧ s.writer.notices.length ≤ q.1.writer.notices.length ∧
    ((q.2 = false ∧ q.1.writer.overflow = s.writer.overflow) ∨
      (q.2 = true ∧ s.writer.overflow = false ∧ NoticesFull q.1.writer)) := by
  unfold appendNotice
  split
  · exact ⟨rfl, Nat.le_refl _, .inl ⟨rfl, rfl⟩⟩
  · split
    · refine ⟨?_, ?_, .inl ⟨rfl, ?_⟩⟩ <;> simp [withIrq_writer, modWriter]
    · split
      · exact ⟨rfl, Nat.le_refl _, .inl ⟨rfl, rfl⟩⟩
      · next h64 ho =>
        exact ⟨rfl, Nat.le_refl _, .inr ⟨rfl, by simpa using ho, rfl, by simpa [modWriter] using h64⟩⟩

/-- What writing rows leaves: nothing held; no row is left unqueued, or the first without room set notice overflow. -/
theorem writeRows_writer (kind lost : Nat) (sequence : BitVec 32) (rows : List (RowId × List Byte)) (part : Nat)
    (unqueued : Option RowId) (s : State) :
    let q := writeRows kind lost sequence rows part unqueued s
    q.1.writer.held = s.writer.held ∧ s.writer.notices.length ≤ q.1.writer.notices.length ∧
    ∀ u, q.2 = .all u →
      (u = unqueued ∧ q.1.writer.overflow = s.writer.overflow) ∨ (s.writer.overflow = false ∧ NoticesFull q.1.writer) := by
  induction rows generalizing part unqueued s with
  | nil =>
    refine ⟨rfl, Nat.le_refl _, fun u h => .inl ⟨?_, rfl⟩⟩
    simp only [writeRows, RowsWritten.all.injEq] at h
    exact h.symm
  | cons r rest ih =>
    unfold writeRows
    dsimp only
    have h1 : (busWrite (offsetAddr (rowAddr r.1 s) 1) (rowBytes kind part lost sequence r.2) s).1.writer = s.writer := rfl
    generalize busWrite (offsetAddr (rowAddr r.1 s) 1) (rowBytes kind part lost sequence r.2) s = p1 at h1 ⊢
    have h2 : (busWrite (rowAddr r.1 s) [1] p1.1).1.writer = p1.1.writer := rfl
    generalize busWrite (rowAddr r.1 s) [1] p1.1 = p2 at h2 ⊢
    rw [h1] at h2
    split
    · split
      · obtain ⟨a1, a2, a3⟩ := appendNotice_writer r.1 p2.1
        obtain ⟨i1, i2, i3⟩ := ih (part + 1) (if (appendNotice r.1 p2.1).2 then some r.1 else unqueued)
          (appendNotice r.1 p2.1).1
        rw [h2] at a1 a2 a3
        refine ⟨i1.trans a1, Nat.le_trans a2 i2, fun u hu => ?_⟩
        rcases i3 u hu with ⟨rfl, ho⟩ | ⟨ho, hn⟩
        · rcases a3 with ⟨hq, ha⟩ | ⟨_, ha, hf⟩
          · exact .inl ⟨by simp [hq], ho.trans ha⟩
          · exact .inr ⟨ha, ho.trans hf.1, Nat.le_trans hf.2 i2⟩
        · rcases a3 with ⟨_, ha⟩ | ⟨_, ha, _⟩
          · exact .inr ⟨ha ▸ ho, hn⟩
          · exact .inr ⟨ha, hn⟩
      · split <;> exact ⟨by simp [takeFreeBit, h2], by simp [takeFreeBit, h2], fun u h => nomatch h⟩
    · exact ⟨by rw [h1], Nat.le_of_eq (by rw [h1]), fun u h => nomatch h⟩

/-- What writing a record brings: no cause; ROW_WRITE; or NOTICE_OVERFLOW, where it set notice overflow at a full queue.
Nothing is held. -/
theorem writeRecord_causes (r : Record) (s : State) :
    let q := writeRecord r s
    q.1.writer.held = s.writer.held ∧
    ((q.2.2 = [] ∧ (q.1.writer.overflow = s.writer.overflow ∨ NoticesFull q.1.writer)) ∨
      (∃ row, q.2.2 = [writerCause .rowWrite row]) ∨
      (∃ row, q.2.2 = [writerCause .noticeOverflow row] ∧ s.writer.overflow = false ∧ NoticesFull q.1.writer)) := by
  unfold writeRecord
  dsimp only
  obtain ⟨h1, h2, h3⟩ := writeRows_writer r.kindCode s.writer.lost s.writer.sequence
    ((rowsFrom s.writer.rowCursor r.bodies.length).zip r.bodies) 1 none s
  generalize writeRows r.kindCode s.writer.lost s.writer.sequence
    ((rowsFrom s.writer.rowCursor r.bodies.length).zip r.bodies) 1 none s = q at h1 h2 h3 ⊢
  split
  · exact ⟨h1, .inr (.inl ⟨_, rfl⟩)⟩
  · next u hu =>
    refine ⟨h1, ?_⟩
    rcases h3 u hu with ⟨rfl, ho⟩ | ⟨ho, hn⟩
    · exact .inl ⟨rfl, .inl ho⟩
    · cases u with
      | none => exact .inl ⟨rfl, .inr hn⟩
      | some row => exact .inr (.inr ⟨_, rfl, ho, hn⟩)

/-! ## What a fault note brings -/

/-- A note that goes to the held queue is held there, or, where it finds no room, meets DOUBLE FAULT (R161, R163). -/
theorem holdRecord_note (x : FaultNote) (full : Option RowId) (s : State) :
    holdRecord (.faultNote x) full s =
      if s.writer.held.length < 8 then
        (modWriter (fun w => { w with held := w.held ++ [.faultNote x] }) s, .held,
          match full with | some row => [writerCause .logFull (some row.val)] | none => [])
      else (s, .discarded, [writerCause .doubleFault none]) := by
  unfold holdRecord
  by_cases h : s.writer.held.length < 8
  · rw [if_pos (by simpa [hasRoom, Record.isNote] using h), if_pos h] <;> cases full <;> rfl
  · rw [if_neg (by simpa [hasRoom, Record.isNote] using h), if_pos (by rfl), if_neg h]

/-- A note behind a held record brings no cause but DOUBLE FAULT, and is held or discarded (R161, R163). -/
theorem placeOnce_note_behind (x : FaultNote) {s : State} (h : s.writer.held ≠ []) :
    let p := placeOnce (.faultNote x) s
    (p.2.2 = [] ∨ p.2.2 = [writerCause .doubleFault none]) ∧ p.1.writer.held.length ≤ s.writer.held.length + 1 ∧
    p.1.writer.overflow = s.writer.overflow := by
  unfold placeOnce
  split
  · exact ⟨.inl rfl, by simp, rfl⟩
  · rw [if_pos (by simp [h]), holdRecord_note]
    split
    · exact ⟨.inl rfl, by simp [modWriter], rfl⟩
    · exact ⟨.inr rfl, by simp, rfl⟩

/-- The one cause that a note can bring: of class FATAL; LOG_FULL, with the note held; or NOTICE_OVERFLOW, with notice
overflow set at a full queue, where it was clear (R170, R210). -/
theorem placeOnce_note_causes (x : FaultNote) (s : State) :
    let p := placeOnce (.faultNote x) s
    p.1.writer.held.length ≤ s.writer.held.length + 1 ∧
    ((p.2.2 = [] ∧ (s.writer.overflow = true → p.1.writer.overflow = true)) ∨ ∃ c, p.2.2 = [c] ∧
      (c.code.cls = .fatal ∨ (p.1.writer.held ≠ [] ∧ p.1.writer.overflow = s.writer.overflow) ∨
        (s.writer.overflow = false ∧ NoticesFull p.1.writer))) := by
  by_cases hh : s.writer.held = []
  · unfold placeOnce
    split
    · exact ⟨by simp, .inl ⟨rfl, id⟩⟩
    · split
      · rw [holdRecord_note, if_pos (by simp [hh])]; exact ⟨by simp [modWriter], .inl ⟨rfl, id⟩⟩
      · unfold placeInRows
        split
        · exact ⟨by simp, .inr ⟨_, rfl, .inl rfl⟩⟩
        · dsimp only
          rw [holdRecord_note, if_pos (by simp [hh])]
          exact ⟨by simp [modWriter], .inr ⟨_, rfl, .inr (.inl ⟨by simp [modWriter], rfl⟩)⟩⟩
        · obtain ⟨he, hc⟩ := writeRecord_causes (.faultNote x) s
          refine ⟨by rw [he]; omega, ?_⟩
          rcases hc with h | ⟨row, h⟩ | ⟨row, h, ho, hn⟩
          · exact .inl ⟨h.1, fun ho => h.2.elim (fun e => e.trans ho) (fun n => n.1)⟩
          · exact .inr ⟨_, h, .inl rfl⟩
          · exact .inr ⟨_, h, .inr (.inr ⟨ho, hn⟩)⟩
  · obtain ⟨h1, h2, h3⟩ := placeOnce_note_behind x hh
    refine ⟨h2, ?_⟩
    rcases h1 with h | h
    · exact .inl ⟨h, fun ho => h3.trans ho⟩
    · exact .inr ⟨_, h, .inl rfl⟩

/-! ## The depth of `raiseTo` -/

/-- Two depths give the same where they do so for the one cause that the note brings. -/
theorem raiseTo_succ_congr {n m : Nat} {c : Cause} {s : State}
    (h : ∀ x c', (placeOnce (.faultNote x) s).2.2 = [c'] →
      raiseTo n c' (placeOnce (.faultNote x) s).1 = raiseTo m c' (placeOnce (.faultNote x) s).1) :
    raiseTo (n + 1) c s = raiseTo (m + 1) c s := by
  unfold raiseTo
  split
  · rfl
  · split
    · rfl
    · dsimp only
      have e : (placeOnce (.faultNote (noteOf c s)) s).2.2.foldl (fun s c => raiseTo n c s)
          (placeOnce (.faultNote (noteOf c s)) s).1 = (placeOnce (.faultNote (noteOf c s)) s).2.2.foldl
          (fun s c => raiseTo m c s) (placeOnce (.faultNote (noteOf c s)) s).1 := by
        rcases (placeOnce_note_causes (noteOf c s) s).2 with ⟨h0, _⟩ | ⟨c', h1, _⟩
        · rw [h0]; rfl
        · rw [h1]; exact h _ c' h1
      rw [e]

theorem raiseTo_fatal {c : Cause} (h : c.code.cls = .fatal) (n m : Nat) (s : State) :
    raiseTo (n + 1) c s = raiseTo (m + 1) c s := by simp [raiseTo, h]

/-- Behind a held record a cause is followed one step at most. -/
theorem raiseTo_behind {s : State} (h : s.writer.held ≠ []) (c : Cause) (n m : Nat) :
    raiseTo (n + 2) c s = raiseTo (m + 2) c s := by
  refine raiseTo_succ_congr fun x c' hc => ?_
  rcases (placeOnce_note_behind x h).1 with h0 | h1
  · rw [h0] at hc; cases hc
  · rw [h1] at hc; cases hc; exact raiseTo_fatal rfl n m _

/-- With notice overflow set a cause is followed two steps at most. -/
theorem raiseTo_overflowed {s : State} (h : s.writer.overflow = true) (c : Cause) (n m : Nat) :
    raiseTo (n + 3) c s = raiseTo (m + 3) c s := by
  refine raiseTo_succ_congr fun x c' hc => ?_
  rcases (placeOnce_note_causes x s).2 with ⟨h0, _⟩ | ⟨c1, h1, hf | hh | ho⟩
  · rw [h0] at hc; cases hc
  · rw [h1] at hc; cases hc; exact raiseTo_fatal hf _ _ _
  · exact raiseTo_behind hh.1 c' n m
  · rw [h] at ho; exact absurd ho.1 (by simp)

/-- A depth of 4 cuts nothing off (R210, log 13). -/
theorem raiseTo_depth (c : Cause) (s : State) (n m : Nat) : raiseTo (n + 4) c s = raiseTo (m + 4) c s := by
  refine raiseTo_succ_congr fun x c' hc => ?_
  rcases (placeOnce_note_causes x s).2 with ⟨h0, _⟩ | ⟨c1, h1, hf | hh | ho⟩
  · rw [h0] at hc; cases hc
  · rw [h1] at hc; cases hc; exact raiseTo_fatal hf _ _ _
  · exact raiseTo_behind hh.1 c' (n + 1) (m + 1)
  · exact raiseTo_overflowed ho.2.1 c' n m

/-- The unfolding of `raise`: the causes that the note brings are raised after it and before the latch (R207, R210). -/
theorem raise_eq (c : Cause) {s : State} (h : s.device ≠ .failed) (hc : c.code.cls ≠ .fatal) :
    raise c s =
      let noted :=
        if (routeOf c.code s).note then
          let p := placeOnce (.faultNote (noteOf c s)) s
          p.2.2.foldl (fun s c => raise c s) p.1
        else s
      if (routeOf c.code s).signal then latchFault noted else noted := by
  have e : (fun (s : State) (c : Cause) => raise c s) = fun s c => raiseTo 7 c s := by
    funext t d; exact raiseTo_depth d t 4 3
  rw [e]
  unfold raise
  rw [show (8 : Nat) = 7 + 1 from rfl, raiseTo, if_neg h, if_neg hc]

/-! ## The length of `retryPass` -/

theorem raiseTo_fatal_device {c : Cause} (h : c.code.cls = .fatal) (n : Nat) (s : State) :
    (raiseTo (n + 1) c s).device = .failed := by
  rw [raiseTo, if_pos h]
  split
  · next hf => exact hf
  · exact enterFailed_device _ _

/-- What a raise leaves is what its note, or the one cause that the note brings, leaves, but for the latch. -/
theorem raiseTo_writer_cases (n : Nat) (c : Cause) (s : State) :
    (raiseTo (n + 1) c s).device = .failed ∨ (raiseTo (n + 1) c s).writer = s.writer ∨
      ∃ x, ((placeOnce (.faultNote x) s).2.2 = [] ∧
          (raiseTo (n + 1) c s).writer = (placeOnce (.faultNote x) s).1.writer) ∨
        ∃ c', (placeOnce (.faultNote x) s).2.2 = [c'] ∧
          ((raiseTo n c' (placeOnce (.faultNote x) s).1).device = .failed → (raiseTo (n + 1) c s).device = .failed) ∧
          (raiseTo (n + 1) c s).writer = (raiseTo n c' (placeOnce (.faultNote x) s).1).writer := by
  rw [raiseTo]
  split
  · next h => exact .inl h
  · split
    · exact .inl (enterFailed_device _ _)
    · have hw : ∀ (b : Bool) (t : State), (if b = true then latchFault t else t).writer = t.writer := by
        intro b t; cases b
        · rfl
        · exact latchFault_writer t
      have hd : ∀ (b : Bool) (t : State), t.device = .failed → (if b = true then latchFault t else t).device = .failed := by
        intro b t ht; cases b
        · exact ht
        · unfold latchFault; rw [if_pos rfl, withIrq_device]; exact ht
      dsimp only
      rw [hw]
      by_cases hn : (routeOf c.code s).note = true
      · rw [if_pos hn]
        refine .inr (.inr ⟨noteOf c s, ?_⟩)
        rcases (placeOnce_note_causes (noteOf c s) s).2 with ⟨h0, _⟩ | ⟨c', h1, _⟩
        · exact .inl ⟨h0, by rw [h0]; rfl⟩
        · exact .inr ⟨c', h1, fun hf => hd _ _ (by rw [h1]; exact hf), by rw [h1]; rfl⟩
      · rw [if_neg hn]; exact .inr (.inl rfl)

/-- Behind a held record a raise holds at most one record more, or takes the device into FAILED. -/
theorem raiseTo_held_behind {s : State} (h : s.writer.held ≠ []) (c : Cause) (n : Nat) :
    (raiseTo (n + 2) c s).device = .failed ∨
      ((raiseTo (n + 2) c s).writer.overflow = s.writer.overflow ∧
        (raiseTo (n + 2) c s).writer.held.length ≤ s.writer.held.length + 1) := by
  rcases raiseTo_writer_cases (n + 1) c s with hf | hw | ⟨x, ⟨_, hw⟩ | ⟨c', hc, hf, _⟩⟩
  · exact .inl hf
  · rw [hw]; exact .inr ⟨rfl, by omega⟩
  · rw [hw]; exact .inr ⟨(placeOnce_note_behind x h).2.2, (placeOnce_note_behind x h).2.1⟩
  · rcases (placeOnce_note_behind x h).1 with h0 | h1
    · rw [h0] at hc; cases hc
    · rw [h1] at hc; cases hc; exact .inl (hf (raiseTo_fatal_device rfl _ _))

/-- With notice overflow set a raise holds at most two records more, or takes the device into FAILED. -/
theorem raiseTo_held_overflowed {s : State} (h : s.writer.overflow = true) (c : Cause) (n : Nat) :
    (raiseTo (n + 3) c s).device = .failed ∨
      ((raiseTo (n + 3) c s).writer.overflow = true ∧
        (raiseTo (n + 3) c s).writer.held.length ≤ s.writer.held.length + 2) := by
  rcases raiseTo_writer_cases (n + 2) c s with hf | hw | ⟨x, ⟨h0, hw⟩ | ⟨c', hc, hf, hw⟩⟩
  · exact .inl hf
  · rw [hw]; exact .inr ⟨h, by omega⟩
  · obtain ⟨h1, h2⟩ := placeOnce_note_causes x s
    rw [hw]
    rcases h2 with ⟨_, ho⟩ | ⟨c1, hc, _⟩
    · exact .inr ⟨ho h, by omega⟩
    · rw [h0] at hc; cases hc
  · obtain ⟨h1, h2⟩ := placeOnce_note_causes x s
    rcases h2 with ⟨h0, _⟩ | ⟨c1, hc1, hcl | ⟨hh, ho⟩ | ⟨ho, _⟩⟩
    · rw [h0] at hc; cases hc
    · rw [hc1] at hc; cases hc; exact .inl (hf (raiseTo_fatal_device hcl _ _))
    · rcases raiseTo_held_behind hh c' n with hd | ⟨h3, h4⟩
      · exact .inl (hf hd)
      · rw [hw]; exact .inr ⟨h3.trans (ho.trans h), by omega⟩
    · rw [h] at ho; cases ho

theorem retryPass_of_failed (n : Nat) {s : State} (h : s.device = .failed) : retryPass n s = s := by
  cases n with
  | zero => rfl
  | succ n => unfold retryPass; split <;> simp [h]

/-- The most records that a retry pass can write from a state on. -/
def retryBound (s : State) : Nat := s.writer.held.length + if s.writer.overflow then 0 else 2

/-- A record leaves the held queue and is written, and the causes that it brings are raised. -/
def retried (r : Record) (rest : List Record) (s : State) : State :=
  let p := writeRecord r (modWriter (fun w => { w with held := rest }) s)
  p.2.2.foldl (fun s c => raise c s) p.1

/-- After a retried record fewer records can be written, or the device is FAILED. -/
theorem retryBound_retried {r : Record} {rest : List Record} {s : State} (hr : s.writer.held = r :: rest) :
    (retried r rest s).device = .failed ∨ retryBound (retried r rest s) + 1 ≤ retryBound s := by
  unfold retried
  dsimp only
  obtain ⟨he, hc⟩ := writeRecord_causes r (modWriter (fun w => { w with held := rest }) s)
  generalize writeRecord r (modWriter (fun w => { w with held := rest }) s) = p at he hc ⊢
  have he' : p.1.writer.held = rest := he
  have ho' : (modWriter (fun w => { w with held := rest }) s).writer.overflow = s.writer.overflow := rfl
  rw [ho'] at hc
  have hl : s.writer.held.length = rest.length + 1 := by rw [hr]; rfl
  unfold retryBound
  rcases hc with ⟨h0, hw⟩ | ⟨row, h0⟩ | ⟨row, h0, hof, hw⟩
  · rw [h0]
    refine .inr ?_
    simp only [List.foldl_nil]
    rw [he', hl]
    rcases hw with hw | hw
    · simp only [hw]; omega
    · simp only [hw.1, if_true]; omega
  · rw [h0]
    exact .inl (raiseTo_fatal_device rfl 7 p.1)
  · rw [h0]
    simp only [List.foldl_cons, List.foldl_nil]
    rcases raiseTo_held_overflowed hw.1 (writerCause .noticeOverflow row) 5 with hf | ⟨h1, h2⟩
    · exact .inl hf
    · refine .inr ?_
      change (raise _ _).writer.overflow = true at h1
      change (raise _ _).writer.held.length ≤ _ at h2
      simp only [h1, hof, if_true, Bool.false_eq_true, if_false]
      rw [he'] at h2
      omega

theorem retryPass_free (n : Nat) {s : State} {r : Record} {rest : List Record} (hd : s.device ≠ .failed)
    (hh : s.writer.held = r :: rest) (hf : readRows s (rowsFrom s.writer.rowCursor r.bodies.length) = .free) :
    retryPass (n + 1) s = retryPass n (retried r rest s) := by
  rw [retryPass, hh]
  dsimp only
  rw [if_neg hd, hf]
  rfl

/-- A pass is long enough: it writes the held records and the notes of one NOTICE_OVERFLOW, and no more (R164, R210). -/
theorem retryPass_length (n m : Nat) (s : State) (hn : retryBound s ≤ n) (hm : retryBound s ≤ m) :
    retryPass n s = retryPass m s := by
  have hnil : ∀ {s : State}, retryBound s ≤ 0 → ∀ n, retryPass n s = s := by
    intro s hs n
    have h0 : s.writer.held = [] := List.length_eq_zero_iff.1 (by unfold retryBound at hs; omega)
    cases n with
    | zero => rfl
    | succ n => rw [retryPass, h0]
  induction n generalizing m s with
  | zero => rw [hnil hn, hnil hn]
  | succ n ih =>
    cases m with
    | zero => rw [hnil hm, hnil hm]
    | succ m =>
      cases hh : s.writer.held with
      | nil => rw [retryPass, retryPass, hh]
      | cons r rest =>
        by_cases hd : s.device = .failed
        · rw [retryPass_of_failed _ hd, retryPass_of_failed _ hd]
        · cases hf : readRows s (rowsFrom s.writer.rowCursor r.bodies.length) with
          | free =>
            rw [retryPass_free n hd hh hf, retryPass_free m hd hh hf]
            rcases retryBound_retried hh with h | h
            · rw [retryPass_of_failed _ h, retryPass_of_failed _ h]
            · exact ih m _ (by omega) (by omega)
          | blocked row => rw [retryPass, retryPass, hh]; dsimp only; rw [hf]
          | busError row => rw [retryPass, retryPass, hh]; dsimp only; rw [hf]

/-- The unfolding of a LOOK at the writer: the record at the head of the held queue is written, the causes that it brings
are raised, and the pass goes on (R164). -/
theorem lookWriter_free {s : State} {r : Record} {rest : List Record} (hd : s.device ≠ .failed) (hb : s.base ≠ 0)
    (hh : s.writer.held = r :: rest)
    (hf : readRows s (rowsFrom s.writer.rowCursor r.bodies.length) = .free) :
    lookWriter s = lookWriter (retried r rest s) := by
  have hl : ∀ t : State, (t.device ≠ .failed → t.base ≠ 0) → lookWriter t = retryPass (t.writer.held.length + 2) t := by
    intro t ht
    unfold lookWriter
    split
    · next hc =>
      by_cases hdt : t.device = .failed
      · exact (retryPass_of_failed _ hdt).symm
      · exact absurd hc (by simpa [hdt] using ht hdt)
    · rfl
  have hrep := reports_writeRecord r (modWriter (fun w => { w with held := rest }) s)
  rw [hl s fun _ => hb, retryPass_free _ hd hh hf, hl]
  · rcases retryBound_retried hh with h | h
    · rw [retryPass_of_failed _ h, retryPass_of_failed _ h]
    · have hb2 : ∀ t : State, retryBound t ≤ t.writer.held.length + 2 := by
        intro t; unfold retryBound; split <;> omega
      exact retryPass_length _ _ _ (by have := hb2 s; omega) (hb2 _)
  · intro hne
    have := foldl_reports (fun c s => raiseTo_reports 8 c s) _ _ hne
    exact fun h0 => hb ((hrep.base.symm.trans this.base.symm).trans h0)

end Sys2Proof.Machine
end

