-- ==== Sys2Proof/Laws/MemOk.lean ====
section
/-! SUPPORT. Every shared operation, from the placing of a record to the end of an event, keeps host memory in its
canonical form. -/

namespace Sys2Proof.Machine

open Sys2Proof

/-- A fold of operations that keep memory canonical keeps it canonical. -/
theorem memOk_foldl {α : Type} {f : State → α → State} (hf : ∀ s a, MemOk s → MemOk (f s a)) (l : List α) {s : State}
    (h : MemOk s) : MemOk (l.foldl f s) := by
  induction l generalizing s with
  | nil => exact h
  | cons a l ih => exact ih (hf s a h)

/-! ## Records and causes -/

theorem memOk_withIrq {f : State → State} {s : State} (h : MemOk (f s)) : MemOk (withIrq f s) :=
  .of_mem_eq (withIrq_mem f s) h

theorem memOk_appendNotice (row : RowId) {s : State} (h : MemOk s) : MemOk (appendNotice row s).1 := by
  unfold appendNotice
  split
  · exact h
  · split
    · exact memOk_withIrq h
    · split <;> exact h

theorem memOk_writeRows (kind lost : Nat) (sequence : BitVec 32) (rows : List (RowId × List Byte)) (part : Nat)
    (unqueued : Option RowId) {s : State} (h : MemOk s) : MemOk (writeRows kind lost sequence rows part unqueued s).1 := by
  induction rows generalizing part unqueued s with
  | nil => exact h
  | cons r rest ih =>
    unfold writeRows
    dsimp only
    have h1 := memOk_busWrite (offsetAddr (rowAddr r.1 s) 1) (rowBytes kind part lost sequence r.2) h
    generalize busWrite (offsetAddr (rowAddr r.1 s) 1) (rowBytes kind part lost sequence r.2) s = p1 at h1 ⊢
    have h2 := memOk_busWrite (rowAddr r.1 s) [1] h1
    generalize busWrite (rowAddr r.1 s) [1] p1.1 = p2 at h2 ⊢
    split
    · split
      · exact ih _ _ (memOk_appendNotice _ h2)
      · split
        · exact Memory.wf_write _ _ h2
        · exact h2
    · exact h1

theorem memOk_writeRecord (r : Record) {s : State} (h : MemOk s) : MemOk (writeRecord r s).1 := by
  unfold writeRecord
  dsimp only
  split
  · exact memOk_writeRows _ _ _ _ _ _ h
  · exact (memOk_writeRows _ _ _ _ _ _ h : MemOk _)

theorem memOk_holdRecord (r : Record) (full : Option RowId) {s : State} (h : MemOk s) :
    MemOk (holdRecord r full s).1 := by
  unfold holdRecord
  split
  · exact h
  · split <;> exact h

theorem memOk_placeOnce (r : Record) {s : State} (h : MemOk s) : MemOk (placeOnce r s).1 := by
  unfold placeOnce placeInRows
  split
  · exact h
  · split
    · exact memOk_holdRecord r none h
    · split
      · exact h
      · exact memOk_holdRecord r _ h
      · exact memOk_writeRecord r h

theorem memOk_landRuns (runs : List (Addr × List Byte)) (n : Nat) {s : State} (h : MemOk s) :
    MemOk (landRuns runs n s) := by
  induction runs generalizing n s with
  | nil => exact h
  | cons r rest ih =>
    unfold landRuns
    split
    · exact h
    · exact ih _ (Memory.wf_writeUntilError [] r.1 (r.2.take n) h)

theorem memOk_stopCardWrite (whole : Bool) {s : State} (h : MemOk s) : MemOk (stopCardWrite whole s) := by
  unfold stopCardWrite
  split
  · exact h
  · exact memOk_landRuns _ _ h

theorem memOk_hush {s : State} (h : MemOk s) : MemOk (hush s) := h

theorem memOk_enterFailed (reason : FailReason) {s : State} (h : MemOk s) : MemOk (enterFailed reason s) := by
  unfold enterFailed
  split
  · exact h
  · exact memOk_hush (memOk_stopCardWrite true (memOk_withIrq h))

theorem memOk_raiseTo (n : Nat) (c : Cause) {s : State} (h : MemOk s) : MemOk (raiseTo n c s) := by
  induction n generalizing c s with
  | zero => exact h
  | succ n ih =>
    unfold raiseTo
    split
    · exact h
    · split
      · exact memOk_enterFailed _ h
      · have key : MemOk (if (routeOf c.code s).note = true then
            (placeOnce (.faultNote (noteOf c s)) s).2.2.foldl (fun s c => raiseTo n c s)
              (placeOnce (.faultNote (noteOf c s)) s).1 else s) := by
          split
          · exact memOk_foldl (fun s c h => ih c h) _ (memOk_placeOnce _ h)
          · exact h
        dsimp only
        split
        · exact memOk_withIrq key
        · exact key

theorem memOk_raise (c : Cause) {s : State} (h : MemOk s) : MemOk (raise c s) := memOk_raiseTo 8 c h

theorem memOk_handRecord (r : Record) {s : State} (h : MemOk s) : MemOk (handRecord r s).1 :=
  memOk_foldl (fun _ c h => memOk_raise c h) _ (memOk_placeOnce r h)

/-! ## Finishes, passages, misses -/

theorem memOk_exchangeRead (offset : Nat) {s : State} (h : MemOk s) : MemOk (exchangeRead offset s) := memOk_raise _ h

theorem memOk_writeFinish (slot : SlotId) (res : OrderResult) {s : State} (h : MemOk s) :
    MemOk (writeFinish slot res s) := by
  unfold writeFinish
  split
  · exact h
  · dsimp only
    have h1 := memOk_busWrite (offsetAddr (slotAddr slot s) 2) [byteOf res.reason.code] h
    generalize busWrite (offsetAddr (slotAddr slot s) 2) [byteOf res.reason.code] s = p1 at h1 ⊢
    have h2 := memOk_busWrite (offsetAddr (slotAddr slot s) 32) (padTo 32 res.bytes) h1
    generalize busWrite (offsetAddr (slotAddr slot s) 32) (padTo 32 res.bytes) p1.1 = p2 at h2 ⊢
    have h3 := memOk_busWrite (slotAddr slot s) [if res.done then stateDone else stateRefused] h2
    generalize busWrite (slotAddr slot s) [if res.done then stateDone else stateRefused] p2.1 = p3 at h3 ⊢
    split
    · split
      · split
        · exact memOk_withIrq h3
        · exact memOk_exchangeRead _ h3
      · exact memOk_exchangeRead _ h2
    · exact memOk_exchangeRead _ h1

theorem memOk_finishParked (w : ParkedFor) (res : OrderResult) {s : State} (h : MemOk s) :
    MemOk (finishParked w res s) := by
  refine memOk_foldl (fun s p h => ?_) _ h
  exact memOk_writeFinish p.slot res (s := unpark p s) h

theorem memOk_enterClosed (t : TrackId) (mode : CloseMode) {s : State} (h : MemOk s) : MemOk (enterClosed t mode s) :=
  memOk_finishParked _ _ h

theorem memOk_discardMarks (pid : PassageId) {s : State} (h : MemOk s) : MemOk (discardMarks pid s) := by
  refine memOk_foldl (fun s st h => ?_) _ h
  exact h

theorem memOk_contextFreed (t : TrackId) {s : State} (h : MemOk s) : MemOk (contextFreed t s) := by
  unfold contextFreed
  split
  · exact memOk_enterClosed t .after h
  · exact h

theorem memOk_completePassage (k : ContextId) (p : Passage) {s : State} (h : MemOk s) :
    MemOk (completePassage k p s) := by
  unfold completePassage
  dsimp only
  have h1 := memOk_handRecord (.passage (passageRecordOf p)) h
  split
  · exact h1
  · exact memOk_contextFreed _ (memOk_discardMarks p.id h1 : MemOk _)

theorem memOk_completeIfDone (id : PassageId) {s : State} (h : MemOk s) : MemOk (completeIfDone id s) := by
  unfold completeIfDone
  split
  · exact h
  · split
    · exact h
    · split
      · exact memOk_completePassage _ _ h
      · exact h

theorem memOk_account (pid : PassageId) (n : Nat) {s : State} (h : MemOk s) : MemOk (account pid n s) := by
  unfold account
  split
  · exact h
  · split
    · exact h
    · split
      · exact memOk_completeIfDone pid h
      · exact h

theorem memOk_testEnded (st : StationId) (outcome : Byte) (n : Nat) {s : State} (h : MemOk s) :
    MemOk (testEnded st outcome n s) := memOk_finishParked _ _ h

theorem memOk_declareMiss (placed : Bool) (reason : MissReason) (r : Request) {s : State} (h : MemOk s) :
    MemOk (declareMiss placed reason r s) := by
  have h1 := memOk_raise (missCause reason r s) h
  unfold declareMiss
  dsimp only
  generalize raise (missCause reason r s) s = s1 at h1 ⊢
  have h2 := memOk_handRecord (.capture (missRecord reason r s1)) h1
  generalize (handRecord (.capture (missRecord reason r s1)) s1).1 = s2 at h2 ⊢
  split
  · exact h2
  · have h3 : MemOk (if placed = true then unschedule r s2 else s2) := by
      split <;> exact h2
    generalize (if placed = true then unschedule r s2 else s2) = s3 at h3 ⊢
    split
    · exact memOk_testEnded _ _ _ h3
    · split
      · exact memOk_account _ _ h3
      · exact h3

theorem memOk_missAll (reason : MissReason) (rs : List Request) {s : State} (h : MemOk s) :
    MemOk (missAll reason rs s) := by
  refine memOk_foldl (fun s r h => ?_) _ h
  split
  · exact memOk_declareMiss true reason r h
  · exact h

/-! ## Exposures and runs -/

theorem memOk_stationRests (st : StationId) {s : State} (h : MemOk s) : MemOk (stationRests st s) := by
  refine memOk_foldl (fun s u h => ?_) _ h
  split <;> exact h

theorem memOk_stationWakes (st : StationId) {s : State} (h : MemOk s) : MemOk (stationWakes st s) := by
  refine memOk_foldl (fun s u h => ?_) _ h
  split <;> exact h

theorem memOk_beginExposure (st : StationId) (length : Nat) (unit : Option UnitId) (dark : Bool) {s : State}
    (h : MemOk s) : MemOk (beginExposure st length unit dark s) := by
  unfold beginExposure
  split
  · exact h
  · exact h

theorem memOk_grant (r : FlashRequest) (u : UnitId) {s : State} (h : MemOk s) : MemOk (grant r u s) :=
  memOk_beginExposure _ _ _ _ (h : MemOk _)

theorem memOk_arbitrationPass {s : State} (h : MemOk s) : MemOk (arbitrationPass s) := by
  unfold arbitrationPass
  refine memOk_foldl (fun s r h => ?_) _ h
  split
  · exact h
  · exact memOk_grant _ _ h

theorem memOk_denyFlash (r : FlashRequest) {s : State} (h : MemOk s) : MemOk (denyFlash r s) :=
  memOk_raise _ (memOk_beginExposure _ _ _ _ (h : MemOk (dropFlash r.station s)))

theorem memOk_requestFlash (r : FlashRequest) {s : State} (h : MemOk s) : MemOk (requestFlash r s) := by
  unfold requestFlash
  dsimp only
  have h1 : MemOk (arbitrationPass { s with waiting := insertFlash r s.waiting }) := memOk_arbitrationPass h
  split
  · exact memOk_denyFlash r h1
  · exact h1

theorem memOk_stepDone (st : StationId) (r : Run) {s : State} (h : MemOk s) : MemOk (stepDone st r s).1 := by
  unfold stepDone
  split <;> exact h

theorem memOk_runFault (st : StationId) (r : Run) (detail : Nat) {s : State} (h : MemOk s) :
    MemOk (runFault st r detail s).1 := memOk_raise _ h

theorem memOk_takeStep (st : StationId) {s : State} (h : MemOk s) : MemOk (takeStep st s).1 := by
  unfold takeStep
  split
  · exact h
  · split
    · split
      · exact memOk_runFault _ _ _ h
      · unfold stepExpose
        split
        · exact memOk_runFault _ _ _ h
        · split
          · exact memOk_beginExposure _ _ _ _ h
          · exact memOk_requestFlash _ (h : MemOk (modRun _ _ _))
      · exact h
      · unfold stepLoop
        split
        · exact h
        · split
          · split
            · exact h
            · exact memOk_stepDone _ _ h
          · exact memOk_runFault _ _ _ h
      · exact memOk_stepDone _ _ h
      · unfold stepAwait
        dsimp only
        split
        · exact memOk_stepDone _ _ h
        · exact h
      · exact h
    · exact h

theorem memOk_deliverMark (st : StationId) (m : Mark) {s : State} (h : MemOk s) : MemOk (deliverMark st m s).1 := by
  unfold deliverMark
  dsimp only
  split
  · split
    · exact memOk_stepDone _ _ h
    · exact h
  · exact h

theorem memOk_closeOut (st : StationId) {s : State} (h : MemOk s) : MemOk (closeOut st s).1 := by
  unfold closeOut
  split
  · exact h
  · next r _ =>
    split
    · dsimp only
      have h1 := memOk_handRecord (.capture (runRecord st r)) h
      generalize (handRecord (.capture (runRecord st r)) s).1 = s1 at h1 ⊢
      have h2 : MemOk (if r.pid = 0 then
          testEnded st (outcomeByte r.outcome.capture r.unsynced) r.exposures.length s1
          else account r.pid r.sighting s1) := by
        split
        · exact memOk_testEnded _ _ _ h1
        · exact memOk_account _ _ h1
      generalize (if r.pid = 0 then
          testEnded st (outcomeByte r.outcome.capture r.unsynced) r.exposures.length s1
          else account r.pid r.sighting s1) = s2 at h2 ⊢
      split
      · exact h2
      · split
        · exact h2
        · exact h2
    · exact h

theorem memOk_offer (st : StationId) {s : State} (h : MemOk s) : MemOk (offer st s).1 := by
  unfold offer
  split
  · exact h
  · split <;> exact h

theorem memOk_handleTask (t : Task) {s : State} (h : MemOk s) : MemOk (handleTask t s).1 := by
  cases t with
  | step st => exact memOk_takeStep st h
  | deliver st m => exact memOk_deliverMark st m h
  | closeOut st => exact memOk_closeOut st h
  | offer st => exact memOk_offer st h

theorem memOk_drainTo (n : Nat) (ts : List Task) {s : State} (h : MemOk s) : MemOk (drainTo n ts s) := by
  induction n generalizing ts s with
  | zero => cases ts <;> exact h
  | succ n ih =>
    cases ts with
    | nil => exact h
    | cons t ts => exact ih _ (memOk_handleTask t h)

theorem memOk_drain (ts : List Task) {s : State} (h : MemOk s) : MemOk (drain ts s) := memOk_drainTo _ ts h

/-! ## The end of an event -/

theorem memOk_settle {s : State} (h : MemOk s) : MemOk (settle s) := by
  have h1 : MemOk (settleDrain s) := by
    unfold settleDrain
    split
    · split
      · exact memOk_finishParked _ _ (h : MemOk (modMover _ s))
      · exact memOk_finishParked _ _ h
      · exact h
    · exact h
  unfold settle settleStopping
  split
  · exact h1
  · exact h1

theorem memOk_conclude {s : State} (h : MemOk s) : MemOk (conclude s) := by
  have h1 : MemOk (if s.device = .failed then s else settle s) := by
    split
    · exact h
    · exact memOk_settle h
  unfold conclude
  dsimp only
  generalize (if s.device = .failed then s else settle s) = s1 at h1 ⊢
  split
  · exact memOk_hush h1
  · exact h1

theorem memOk_catchUp {s : State} (h : MemOk s) : MemOk (catchUp s) := by
  unfold catchUp
  split
  · exact h
  · dsimp only
    next ts _ =>
    have h1 : MemOk (drain s.undone { s with undone := [] }) := memOk_drain _ (h : MemOk { s with undone := [] })
    split
    · exact memOk_hush h1
    · exact h1

theorem memOk_taken (m : Moment) {s : State} (h : MemOk s) : MemOk (taken m s) := memOk_catchUp (memOk_arrive m h)

/-- An event whose effect keeps memory canonical ends with memory canonical. -/
theorem memOk_event {m : Moment} {effect : State → State} {s t : State} (hf : ∀ s, MemOk s → MemOk (effect s))
    (h : MemOk s) (ht : event m effect s = .next t) : MemOk t := by
  unfold event at ht
  injection ht with ht
  subst ht
  split
  · exact memOk_taken m h
  · exact memOk_conclude (hf _ (memOk_taken m h))

/-- A plain event whose effect keeps memory canonical ends with memory canonical. -/
theorem memOk_plainEvent {m : Moment} {effect : State → State} {s t : State} (hf : ∀ s, MemOk s → MemOk (effect s))
    (h : MemOk s) (ht : plainEvent m effect s = .next t) : MemOk t := by
  unfold plainEvent at ht
  injection ht with ht
  subst ht
  split
  · exact memOk_taken m h
  · exact hf _ (memOk_taken m h)

end Sys2Proof.Machine
end

