-- ==== Sys2Proof/Laws/Quiet.lean ====
section
/-! SUPPORT. The entry into FAILED leaves every block quiet, and the end of an event keeps a FAILED device quiet. -/

namespace Sys2Proof.Machine

open Sys2Proof

/-! ## Dropping twice is dropping once -/

theorem WheelFilter.drop_drop (f : WheelFilter) : f.drop.drop = f.drop := rfl
theorem TrackUnit.drop_drop (u : TrackUnit) : u.drop.drop = u.drop := rfl
theorem Station.fail_fail (x : Station) : x.fail.fail = x.fail := rfl
theorem StrobeUnit.fail_fail (u : StrobeUnit) : u.fail.fail = u.fail := rfl
theorem TileMover.fail_fail (m : TileMover) : m.fail.fail = m.fail := rfl

theorem hush_device (s : State) : (hush s).device = s.device := rfl

/-- The entry into FAILED leaves every block quiet. -/
theorem quiescent_hush (s : State) : quiescent (hush s) = true := by
  have ht : ∀ t : TrackId, quietTrack (hush s).tracks[t] = true := by
    intro t
    have h : (hush s).tracks[t] = s.tracks[t].drop := by simp [hush]
    rw [h]; exact beq_iff_eq.2 (TrackUnit.drop_drop _).symm
  have hs : ∀ st : StationId, quietStation (hush s).stations[st] = true := by
    intro st
    have h : (hush s).stations[st] = s.stations[st].fail := by simp [hush]
    rw [h]; exact beq_iff_eq.2 (Station.fail_fail _).symm
  have hu : ∀ u : UnitId, quietUnit (hush s).units[u] = true := by
    intro u
    have h : (hush s).units[u] = s.units[u].fail := by simp [hush]
    rw [h]; exact beq_iff_eq.2 (StrobeUnit.fail_fail _).symm
  have hp : ∀ k : ContextId, (hush s).passages[k].isNone = true := by intro k; simp [hush]
  have ho : ∀ st : StationId, (hush s).openExposures[st].isNone = true := by intro st; simp [hush]
  have hl : (hush s).lingering.isEmpty = true := rfl
  have ha : ∀ st : StationId, (hush s).ports[st].awaited.isEmpty = true := by intro st; simp [hush]
  have hm : ((hush s).mover == (hush s).mover.fail) = true := beq_iff_eq.2 (TileMover.fail_fail _).symm
  have he : ((hush s).engine == .reset) = true := beq_iff_eq.2 rfl
  unfold quiescent
  rw [hm, he, List.all_eq_true.2 fun t _ => ht t, List.all_eq_true.2 fun k _ => hp k,
    List.all_eq_true.2 fun st _ => hs st, List.all_eq_true.2 fun u _ => hu u, List.all_eq_true.2 fun st _ => ho st, hl,
    List.all_eq_true.2 fun st _ => ha st]
  rfl

/-- A quiet device has no notice left unhandled. -/
theorem undone_of_quiescent {s : State} (h : quiescent s = true) : s.undone = [] := by
  unfold quiescent at h
  rw [Bool.and_eq_true] at h
  exact List.isEmpty_iff.1 h.2

/-! ## Events -/

theorem failedQuiet_hush (s : State) : FailedQuiet (hush s) := fun _ => quiescent_hush s

theorem failedQuiet_of_live {s : State} (h : s.device ≠ .failed) : FailedQuiet s := fun hf => absurd hf h

theorem failedQuiet_conclude (s : State) : FailedQuiet (conclude s) := by
  unfold conclude
  dsimp only
  split
  · exact failedQuiet_hush _
  · split
    · exact failedQuiet_hush _
    · exact failedQuiet_of_live ‹_›

theorem failedQuiet_arrive (m : Moment) {s : State} (h : FailedQuiet s) : FailedQuiet (arrive m s) := h

theorem failedQuiet_catchUp {s : State} (h : FailedQuiet s) : FailedQuiet (catchUp s) := by
  unfold catchUp
  split
  · exact h
  · dsimp only
    split
    · exact failedQuiet_hush _
    · exact failedQuiet_of_live ‹_›

theorem failedQuiet_taken (m : Moment) {s : State} (h : FailedQuiet s) : FailedQuiet (taken m s) :=
  failedQuiet_catchUp (failedQuiet_arrive m h)

theorem failedQuiet_event {m : Moment} {f : State → State} {s t : State} (h : FailedQuiet s)
    (ht : event m f s = .next t) : FailedQuiet t := by
  unfold event at ht
  injection ht with ht
  subst ht
  split
  · exact failedQuiet_taken m h
  · exact failedQuiet_conclude _

/-- An effect that does not take the device into FAILED, taken without the tests of the end of an event. -/
theorem failedQuiet_plainEvent {m : Moment} {f : State → State} {s t : State} (h : FailedQuiet s)
    (hf : ∀ s : State, s.device ≠ .failed → (f s).device ≠ .failed) (ht : plainEvent m f s = .next t) :
    FailedQuiet t := by
  unfold plainEvent at ht
  injection ht with ht
  subst ht
  split
  · exact failedQuiet_taken m h
  · exact failedQuiet_of_live (hf _ ‹_›)

end Sys2Proof.Machine
end

