-- ==== Sys2Proof/WellFormed.lean ====
section
/-! DEFINITION. Which commands are well formed: the bounds on their operands that their types do not carry. -/

namespace Sys2Proof

/-- Host writes and bus errors lie in the 64-bit address space (00, "Shared memory"). -/
def Moment.wf (m : Moment) : Bool :=
  m.hostWrites.all (fun c => decide (c.1 < 2 ^ 64)) && m.readErrors.all (fun a => decide (a < 2 ^ 64)) &&
    m.writeErrors.all (fun a => decide (a < 2 ^ 64))

/-- The parts of a frame fit the 16-bit size fields and the 8-bit depth field of the tile header (11.4). -/
def Frame.wf (f : Frame) : Bool :=
  decide (f.width < 65536) && decide (f.height < 65536) && decide (f.depth < 256)

/-- A read of a fixed length returns that many bytes, or a bus error. -/
def readWf {α : Type} (n : Nat) (r : Option (List α)) : Bool :=
  match r with
  | none => true
  | some bytes => bytes.length == n

/-- The well-formed commands. -/
def Instr.wf : Instr → Bool
  | .powerOn m _ => m.wf
  | .linkReset m _ => m.wf
  | .controlNone m _ code => m.wf && !([1, 2, 3, 4].contains code)
  | .controlLook m _ => m.wf
  | .controlStart m _ => m.wf
  | .controlStop m _ => m.wf
  | .controlSoftReset m _ _ => m.wf
  | .exchangeBaseLowWrite m _ => m.wf
  | .exchangeBaseHighWrite m _ => m.wf
  | .causeWrite m _ => m.wf
  | .noticeRead m => m.wf
  | .registerWriteIgnored m _ _ => m.wf
  | .assertingEdge m _ _ => m.wf
  | .releasingEdge m _ _ => m.wf
  | .bounceTimerExpiry m _ _ => m.wf
  | .settleTimerExpiry m _ => m.wf
  | .ignoreTimerExpiry m _ => m.wf
  | .axleEntryExpiry m _ _ => m.wf
  | .scanMessage m _ _ => m.wf
  | .stuckTimerExpiry m _ => m.wf
  | .curtainSilenceExpiry m _ => m.wf
  | .tailTimerExpiry m _ => m.wf
  | .dueTimerExpiry m => m.wf
  | .readyAnswer m _ => m.wf
  | .restTimerExpiry m _ => m.wf
  | .wakeLimitExpiry m _ => m.wf
  | .exposureEnd m _ => m.wf
  | .pauseEnd m _ => m.wf
  | .awaitTimerExpiry m _ => m.wf
  | .strobeReady m _ => m.wf
  | .rechargeTimerExpiry m _ => m.wf
  | .pulseEnd m _ => m.wf
  | .flashDeadline m => m.wf
  | .frameArrival m _ frame => m.wf && frame.wf
  | .frameTimerExpiry m _ number => m.wf && decide (1 ≤ number) && decide (number ≤ 8)
  | .takeReadCompletion m card => m.wf && readWf 32 card
  | .markingCompletion m => m.wf
  | .writeCompletion m => m.wf
  | .writeBusError m _ => m.wf
  | .followReadCompletion m _ => m.wf
  | .probeReadCompletion m _ => m.wf
  | .loadPlan m _ _ => m.wf
  | .planReadCompletion m plan => m.wf && readWf 872 plan
  | .loadPrograms m _ _ _ => m.wf
  | .programTableReadCompletion m table => m.wf && readWf 4096 table
  | .openTrack m _ _ => m.wf
  | .closeTrackNow m _ _ => m.wf
  | .closeTrackAfter m _ _ => m.wf
  | .abandonPassage m _ _ => m.wf
  | .testShot m _ _ _ _ => m.wf
  | .giveChain m _ _ => m.wf
  | .withdrawCards m _ _ _ => m.wf
  | .addressListReadCompletion m addresses =>
    m.wf && (match addresses with | none => true | some l => decide (1 ≤ l.length) && decide (l.length ≤ 16))
  | .drain m _ => m.wf
  | .snapshot m _ => m.wf
  | .setRestRest m _ _ => m.wf
  | .setRestWake m _ _ => m.wf
  | .gantryTimeWrap m => m.wf

end Sys2Proof
end

