-- ==== Sys2Proof/Tests/Slice0.lean ====
section
/-! SUPPORT. The tests: ill-formed commands that the check refuses, numbers of the manual, and for each statement with
hypotheses a concrete state and operands that meet them. -/

set_option Elab.async false

namespace Sys2Proof.Tests

open Sys2Proof Sys2Proof.Machine

/-! ## Helpers -/

/-- A Moment with nothing but a time. -/
def mo (t : Nat) : Moment := { now := BitVec.ofNat 48 t, hostWrites := [], readErrors := [], writeErrors := [] }

/-- The plan of track T1 in the worked passage (12.5). -/
def aTrackPlan : TrackPlan :=
  { enabled := true, roofLine := 12, contact := 18, settleScans := 3, uSpacing := 2000, dSpacing := 5000, bounce := 200
    settleMs := 100, stuckS := 5, silenceS := 10, tail := 20000 }

/-- The plan of station S2 in the worked passage (12.5). -/
def aStationPlan : StationPlan :=
  { track := 1, servesUp := true, servesDown := true, programUp := some 1, programDown := some 1, offset := 12000
    lead := 1500, tolerance := 1000, strobeMask := 0b010100, sensitive := true, cropLeft := 0, cropWidth := 4
    cropHeight := 4, testRow := 10, restS := 0, wakeMs := 100, frameTimeout := 50, heights := List.replicate 24 10 }

/-- A gantry at work: WATCHING, every track, station and unit planned, every cause routed to a note and the signal. -/
def gantry : State :=
  { State.reset with
    device := .watching, base := 0x10000, gantryTime := 1000, headMin := 150, headMax := 1200, routingLimit := 28
    routing := List.replicate 28 { note := true, signal := true }
    tracks := Vector.replicate 4 { TrackUnit.reset with plan := aTrackPlan, state := .watching }
    stations := Vector.replicate 8 { Station.reset with plan := some aStationPlan, state := .idle }
    units := Vector.replicate 6 { StrobeUnit.reset with
      state := .ready, litTracks := 15, rechargeMs := 1000, reach := 15, users := 255 }
    ports := Vector.replicate 8 { Port.reset with configured := true } }

/-- The same part in READY. -/
def ready : State := { gantry with device := .ready }

/-- The same part in FAILED. -/
def failed : State := hush { gantry with device := .failed, failReason := .selfCheck }

/-- A passage of T1, in RUNNING with one planned sighting. -/
def aPassage : Passage :=
  { id := 301, track := 1, dir := .up, state := .running, openTime := 900, lastPulse := 900, estimate := some 83333
    minSpeed := some 83333, maxSpeed := some 83333, axles := 1
    sightings := [{ number := some 1, enter := 910, leave := 920, topBeam := 20, headClass := some .raised
                    speed := some 83333, state := .planned, openRequests := 2 }]
    overflow := 0, roofItems := 0, unpaired := 0, implausible := 0, outstanding := 2
    tail := some { kind := .tail, expiry := 1000 }, close := none }

/-- The gantry with that passage in context 0, served by its track. -/
def travelling : State :=
  modTrack 1 (fun u => { u with served := some { id := 301, dir := .up } }) (setPassage 0 (some aPassage) gantry)

/-- A run of a station. -/
def aRun : Run :=
  { pid := 301, sighting := 1, program := 1, due := 900, start := 900, track := 1, dir := some .up
    headClass := some .raised, topBeam := some 20, speed := 83333, testSpeed := none, index := 0, loop := none
    exposures := [], wait := .none, outcome := .done, unsynced := false }

/-- Station S2 with a run. -/
def running (r : Run) : State := modStation 2 (fun x => { x with state := .running, run := some r }) travelling

/-- A program whose step 0 is given and whose other steps are FINISH. -/
def programOf (p : Step) : Program := (Vector.replicate 32 Step.finish).set 0 p

/-- Station S2 at step 0 of a program with that step. -/
def atStep (p : Step) (r : Run) : State :=
  let s := running r
  { s with programs := s.programs.set 1 (some (programOf p)) }

/-- A request of the passage at S2. -/
def aRequest : Request :=
  { pid := 301, sighting := 1, station := 2, program := 1, due := 1000, tolerance := 1000, testSpeed := none }

/-- A tile. -/
def aTile : Tile := { station := 2, number := 1, pid := 301, sighting := 1, clipped := false, bytes := List.replicate 20 7 }

/-- The 32 bytes of a good card: capacity 8,192, buffer 0x300000, next 0x200020. -/
def aCard : List Byte :=
  [0x5A, 0x16, 0, 0, 0, 0x20, 0, 0, 0, 0, 0x30, 0, 0, 0, 0, 0, 0x20, 0, 0x20, 0, 0, 0, 0, 0] ++ List.replicate 8 0

/-- The gantry with a mover. -/
def moving (f : TileMover → TileMover) : State := modMover f gantry

/-- The state after a step that answers one. -/
def after (c : Instr) (s : State) : State := match exec c s with | .next t => t | .fault _ => s | .refused _ => s

/-- The outcome is a next state. -/
def isNext : Host.Outcome State Fault Refusal → Bool
  | .next _ => true
  | .fault _ => false
  | .refused _ => false

/-! ## Ill-formed commands -/

theorem test_wf_host_write : Instr.wf (.gantryTimeWrap { mo 0 with hostWrites := [(2 ^ 64, 1)] }) = false := by decide
theorem test_wf_read_error : Instr.wf (.gantryTimeWrap { mo 0 with readErrors := [2 ^ 64] }) = false := by decide
theorem test_wf_write_error : Instr.wf (.gantryTimeWrap { mo 0 with writeErrors := [2 ^ 64] }) = false := by decide
theorem test_wf_action_code : Instr.wf (.controlNone (mo 0) 0 1) = false ∧ Instr.wf (.controlNone (mo 0) 0 4) = false ∧
    Instr.wf (.controlNone (mo 0) 0 0) = true ∧ Instr.wf (.controlNone (mo 0) 0 5) = true := by decide
theorem test_wf_frame_width : Instr.wf (.frameArrival (mo 0) 0 ⟨0, 65536, 1, 8, []⟩) = false := by decide
theorem test_wf_frame_height : Instr.wf (.frameArrival (mo 0) 0 ⟨0, 1, 65536, 8, []⟩) = false := by decide
theorem test_wf_frame_depth : Instr.wf (.frameArrival (mo 0) 0 ⟨0, 1, 1, 256, []⟩) = false := by decide
theorem test_wf_frame_number : Instr.wf (.frameTimerExpiry (mo 0) 0 0) = false ∧
    Instr.wf (.frameTimerExpiry (mo 0) 0 9) = false ∧ Instr.wf (.frameTimerExpiry (mo 0) 0 8) = true := by decide
theorem test_wf_card_length : Instr.wf (.takeReadCompletion (mo 0) (some [])) = false ∧
    Instr.wf (.takeReadCompletion (mo 0) none) = true := by decide
theorem test_wf_plan_length : Instr.wf (.planReadCompletion (mo 0) (some [])) = false := by decide
theorem test_wf_table_length : Instr.wf (.programTableReadCompletion (mo 0) (some [])) = false := by decide
theorem test_wf_address_list : Instr.wf (.addressListReadCompletion (mo 0) (some [])) = false ∧
    Instr.wf (.addressListReadCompletion (mo 0) (some (List.replicate 17 1))) = false ∧
    Instr.wf (.addressListReadCompletion (mo 0) (some (List.replicate 16 1))) = true := by decide

/-! ## Numbers of the manual -/

/-- No row of the table gives bits (log 24). -/
theorem test_no_word_spells_a_command : decodeTableWord 32 0 = none := rfl

/-- Due times of 12.5: S2 at 20,294,900, S3 at 20,510,901. -/
theorem test_due_times :
    dueTime 20150000 20154800 .up aStationPlan 83333 = 20294900 ∧
    dueTime 20150000 20154800 .up { aStationPlan with offset := 30000 } 83333 = 20510901 := by decide +kernel

/-- The first U pair of 12.5: 24,000 us over 2,000 mm measure 83,333 mm/s; an interval below 18,000 us is implausible. -/
theorem test_measurement :
    (passageOf 301 (testInterval 1 .u 301 24000 travelling)).bind Passage.estimate = some 83333 ∧
    (passageOf 301 (testInterval 1 .u 301 18000 travelling)).map Passage.implausible = some 0 ∧
    (passageOf 301 (testInterval 1 .u 301 17999 travelling)).map Passage.implausible = some 1 := by decide +kernel

/-- The card of the tests is a good card (12.1 step 8). -/
theorem test_card : cardOwnedByDevice aCard = true ∧ cardSumGood aCard = true ∧ cardCapacity aCard = 8192 ∧
    cardBuffer aCard = 0x300000 ∧ cardNext aCard = 0x200020 := by decide +kernel

/-- An asserting edge, 200 us, and the pulse of U-outer opens passage 1 as Up with kind SILENCE (12.5, "Opening"). -/
theorem test_opening :
    let s := after (.bounceTimerExpiry (mo 2200) 1 .uOuter) (after (.assertingEdge (mo 2000) 1 .uOuter) gantry)
    (s.tracks[1].served = some ⟨1, .up⟩ ∧ s.tracks[1].uQueue = [2000] ∧ s.nextPassageId = 2) ∧
    s.passages[0].bind Passage.tail = some ⟨.silence, 10002000⟩ := by decide +kernel

/-- A snapshot of a part with an empty log lies in rows 0 to 3 (R169). -/
theorem test_snapshot_rows :
    (after (.snapshot (mo 2000) 3) gantry).writer.rowCursor = 4 ∧
    busRead 0x11000 2 (after (.snapshot (mo 2000) 3) gantry) = [1, 0x14] := by decide +kernel

/-- A grant fires the lowest usable unit for 20 us each step of intensity (R108). -/
theorem test_grant :
    let s := (takeStep 2 (atStep (.expose 300 4 0b010100 200) aRun)).1
    s.units[2].state = .firing ∧ s.units[2].pulseEnd = some 1080 ∧ s.openExposures[2] = some ⟨1, 1000, 1300⟩ := by
  decide +kernel

/-! ## Witnesses: states and operands that meet the hypotheses of each statement -/

theorem test_witness_StepTakesFront :
    { State.reset with pending := [.gantryTimeWrap (mo 5)] }.pending = .gantryTimeWrap (mo 5) :: [] := rfl

theorem test_witness_EmptyQueueStep :
    State.reset.pending = [] ∧ dueCommands State.reset = [] ∧
    (let s := { State.reset with dueTimer := some 0 }
     dueCommands s = [.dueTimerExpiry (idleMoment s)]) ∧
    (let s := modStation 0 (fun x => { x with restTimer := some 0 }) { State.reset with dueTimer := some 0 }
     dueCommands s ≠ []) := by decide +kernel

theorem test_witness_TakenAtMoment : State.reset.undone = [] := rfl

theorem test_witness_FailedStopsBlocks :
    stoppedInFailed (.readyAnswer (mo 2000) 0) = true ∧
    (taken (momentOf (.readyAnswer (mo 2000) 0)) failed).device = .failed := by decide +kernel

theorem test_witness_StepKeepsFailedQuiet : FailedQuiet failed ∧ failed.device = .failed ∧ isNext (step failed) = true :=
  ⟨fun _ => by decide +kernel, by decide +kernel, by decide +kernel⟩

theorem test_witness_StepKeepsMemoryCanonical :
    Memory.wf [(3, 1)] = true ∧ isNext (step { State.reset with mem := [(3, 1)] }) = true := by decide +kernel

theorem test_witness_StepKeepsCapacities : withinCapacities gantry = true ∧ isNext (step gantry) = true := by
  decide +kernel

/-- STOPPING with nothing open, and with an open passage. -/
theorem test_witness_StoppingEnds :
    let s := { gantry with device := .stopping }
    (s.device = .stopping ∧ (settleDrain s).device = .stopping ∧ (∀ k : ContextId, (settleDrain s).passages[k] = none) ∧
      (∀ st : StationId, (settleDrain s).stations[st].run = none) ∧ (settleDrain s).mover.queue = [] ∧
      (settleDrain s).mover.current = none) ∧
    (settleDrain { travelling with device := .stopping }).device = .stopping ∧
    (settleDrain { travelling with device := .stopping }).passages[(0 : ContextId)] ≠ none := by decide +kernel

/-- A state with a parked DRAIN at slot 3. -/
def draining : State := park 3 .drain gantry

theorem test_witness_EndOfEvent :
    calm gantry = true ∧ failed.device = .failed ∧
    draining.engine.parked.filter (fun p => p.waits == .drain) = [⟨3, .drain⟩] ∧
    (modMover (fun m => { m with drainContext := some 64 }) draining).mover.drainContext = some 64 ∧
    (draining.mover.drainContext = none ∧ draining.mover.queue = [] ∧ draining.mover.current = none ∧
      (∀ st : StationId, draining.stations[st].run = none) ∧ draining.mover.condition ≠ .held ∧
      draining.writer.held = []) ∧
    (modMover (fun m => { m with queue := [aTile] }) draining).mover.queue ≠ [] := by decide +kernel

/-- The gantry with a card being written. -/
def writing : State :=
  moving fun m => { m with
    condition := .ok, cursor := .at 0x200000, phase := .writing
    current := some { address := 0x200000, capacity := 8192, buffer := 0x300000, tile := aTile } }

/-- The gantry with a card being marked. -/
def marking (next : Addr) (head : Option Addr) : State :=
  moving fun m => { m with
    condition := .ok, cursor := .at 0x200000, phase := .marking, pendingHead := head
    marked := some { address := 0x200000, next := next } }

theorem test_witness_CardWriteStops :
    phaseRuns gantry.mover = [] ∧ phaseRuns writing.mover ≠ [] ∧ Memory.wf writing.mem = true ∧
    phaseRuns (marking 0 none).mover ≠ [] ∧
    (∀ r ∈ phaseRuns writing.mover, ∀ i, i < r.2.length → 5 ≠ (offsetAddr r.1 i).toNat) := by decide +kernel

theorem test_witness_Resets :
    (let b := stopCardWrite false (setEnables 0 (taken (mo 2000) failed))
     b.device = .failed ∧ b.failReason = .selfCheck) ∧
    (let b := stopCardWrite false (setEnables 0 (taken (mo 2000) gantry))
     b.device ≠ .failed ∧ b.base ≠ 0) ∧
    (stopCardWrite false (setEnables 0 (taken (mo 2000) State.reset))).base = 0 := by decide +kernel

theorem test_witness_IdentityBlock : Memory.wf gantry.mem = true ∧ writable gantry.base 256 gantry :=
  ⟨by decide, fun _ _ h => nomatch h⟩

/-- A latched bit whose enable is set now, one whose enable stays clear, one that was enabled before. -/
theorem test_witness_PlainRegisterWrites :
    let s := { gantry with latches := { Latches.clear with orders := true } }
    let b := taken (mo 2000) s
    (irqCondition b = false ∧ irqCondition { b with enables := 2 } = true ∧ irqCondition { b with enables := 4 } = false) ∧
    irqCondition (taken (mo 2000) { s with enables := 2 }) = true := by decide +kernel

theorem test_witness_ControlStart :
    (setEnables 0 (taken (mo 2000) ready)).device = .ready ∧
    (setEnables 0 (taken (mo 2000) gantry)).device ≠ .ready := by decide +kernel

theorem test_witness_ControlStop :
    (let b := setEnables 0 (taken (mo 2000) gantry)
     b.device = .watching ∧ (∀ k : ContextId, b.passages[k] = none) ∧ (∀ st : StationId, b.stations[st].run = none) ∧
       b.schedule = [] ∧ b.engine.parked = [] ∧ b.mover.queue = [] ∧ b.mover.current = none) ∧
    (setEnables 0 (taken (mo 2000) failed)).device = .failed ∧
    (let b := setEnables 0 (taken (mo 2000) ready)
     b.device ≠ .watching ∧ b.device ≠ .failed) := by decide +kernel

/-- The base as joined is 0, or valid with its writes answered, or valid with an error at its first byte; a part in
WATCHING does not take it. -/
theorem test_witness_ExchangeBaseWrites :
    (let b := taken (mo 2000) State.reset
     b.device = .dormant ∧ b.engine.scan = none ∧ b.engine.parked = [] ∧
       (0 : Word) ++ b.stagedLow ++ (0 : BitVec 12) = (0 : Addr) ∧ (1 : Word) ++ b.stagedLow ++ (0 : BitVec 12) ≠ (0 : Addr)) ∧
    (let b := taken (mo 2000) gantry
     b.device ≠ .failed ∧ ¬(b.device = .dormant ∨ b.device = .ready)) := by decide +kernel

theorem test_witness_ExchangeBaseWrites_bus :
    writable ((1 : Word) ++ (0 : BitVec 20) ++ (0 : BitVec 12)) 256 State.reset ∧
    ¬writable ((1 : Word) ++ (0 : BitVec 20) ++ (0 : BitVec 12)) 256 { State.reset with writeErrors := [4294967296] } :=
  ⟨fun _ _ h => (nomatch h), fun h => h 0 (by decide) (by decide)⟩

theorem test_witness_RegisterWords : gantry.engine.parked.length ≤ 4 ∧ gantry.writer.held.length ≤ 8 := by decide +kernel

/-- Two latched bits, both enabled: a write of one leaves the condition, a write of both ends it. -/
theorem test_witness_CauseWrite :
    let t := fun (v : Word) => { gantry with enables := 31, latches :=
      { orders := !v.getLsbD 1, dry := !v.getLsbD 2, fault := false, failed := false } }
    irqCondition (t 2) = true ∧ irqCondition (t 6) = false := by decide +kernel

theorem test_witness_NoticeRead :
    (taken (mo 2000) gantry).writer.notices = [] ∧
    (taken (mo 2000) (modWriter (fun w => { w with notices := [7] }) gantry)).writer.notices = 7 :: [] := by decide +kernel

/-- The gantry with no base, where a LOOK reaches the mover alone. -/
def looking (f : TileMover → TileMover) : State := { moving f with base := 0 }

theorem test_witness_LookAtMover :
    (let b := setEnables 0 (taken (mo 2000) (looking id))
     calm b = true ∧ b.base = 0 ∧ b.mover.phase = .idle ∧ b.mover.condition = .dry ∧ b.mover.cursor = .absent) ∧
    (∀ phase ∈ [Phase.taking, .following, .probing, .writing, .marking],
      let b := setEnables 0 (taken (mo 2000) (looking fun m => { m with phase := phase }))
      calm b = true ∧ b.base = 0 ∧ b.mover.phase = phase) ∧
    (∀ cursor ∈ [Cursor.at 64, .after 64], ∀ condition ∈ [ChainCondition.ok, .dry, .held], ∀ queue ∈ [[], [aTile]],
      let b := setEnables 0 (taken (mo 2000)
        (looking fun m => { m with cursor := cursor, condition := condition, queue := queue }))
      calm b = true ∧ b.base = 0 ∧ b.mover.phase = .idle ∧ b.mover.cursor = cursor ∧ b.mover.condition = condition ∧
        b.mover.queue = queue) := by decide +kernel

/-- A board without orders, a scan under way, and the slots of a board: held, not POSTED, POSTED, not readable. -/
theorem test_witness_LookAtBoardAndLog_board :
    (State.reset.device ≠ .failed ∧ State.reset.base = 0) ∧ (gantry.device ≠ .failed ∧ gantry.base ≠ 0 ∧
      gantry.engine.scan = none) ∧ (modEngine (fun e => { e with scan := some 3 }) gantry).engine.scan ≠ none ∧
    (holdsSlot 3 draining = true ∧ holdsSlot 2 draining = false ∧ draining.readErrors = [] ∧
      busRead (slotAddr 2 draining) 1 draining ≠ [1]) ∧
    (let s := { draining with mem := [(0x10480, 1)] }
     holdsSlot 2 s = false ∧ s.readErrors = [] ∧ busRead (slotAddr 2 s) 1 s = [1]) ∧
    (let s := { draining with readErrors := [0x10480] }
     holdsSlot 2 s = false ∧ (slotAddr 2 s).toNat ∈ s.readErrors) := by decide +kernel

/-- A fault note that waits as a held record. -/
def aNote : Record := .faultNote
  { code := .logFull, cls := .note, original := none, time := 5, track := none, station := none, unit := none
    pid := none, detail := none }

theorem test_witness_LookAtBoardAndLog_log :
    (gantry.device ≠ .failed ∧ gantry.writer.held = []) ∧
    (let s := modWriter (fun w => { w with held := [aNote] }) { gantry with mem := [(0x11000, 1)] }
     s.base ≠ 0 ∧ s.writer.held = aNote :: [] ∧
       readRows s (rowsFrom s.writer.rowCursor aNote.bodies.length) = .blocked 0) ∧
    (let s := modWriter (fun w => { w with held := [aNote] }) gantry
     s.base ≠ 0 ∧ s.writer.held = [aNote] ∧ readRows s (rowsFrom s.writer.rowCursor aNote.bodies.length) = .free ∧
       (writeRecord aNote { s with writer := { s.writer with held := [] } }).2.2 = []) := by decide +kernel

/-- A gantry whose U-outer filter of T1 is in a given state, its timer at 1,000. -/
def filtering (n : FilterState) : State :=
  modFilter 1 .uOuter (fun f => { f with state := n, asserted := true, edgeTime := 800, bounce := some 1000 }) gantry

theorem test_witness_WheelEdges :
    (∀ n ∈ [FilterState.quiet, .confirming, .on, .recovering],
      ((taken (mo 2000) (filtering n)).tracks[(1 : TrackId)].filter .uOuter).state = n ∧
      (taken (mo 2000) (filtering n)).tracks[(1 : TrackId)].state = .watching) ∧
    (taken (mo 2000) State.reset).tracks[(1 : TrackId)].state = .closed := by decide +kernel

/-- Taken at the instant of the timer (1,000), and one microsecond before it. -/
theorem test_witness_BounceExpiry :
    (∀ n ∈ [FilterState.recovering, .confirming],
      let b := taken (mo 1000) (filtering n)
      b.device ≠ .failed ∧ expired (b.tracks[(1 : TrackId)].filter .uOuter).bounce b.gantryTime = true ∧
        (b.tracks[(1 : TrackId)].filter .uOuter).state = n) ∧
    (let b := taken (mo 999) { filtering .on with gantryTime := 0 }
     expired (b.tracks[(1 : TrackId)].filter .uOuter).bounce b.gantryTime = false) := by decide +kernel

theorem test_witness_UnservedPulse :
    (∀ n ∈ [TrackState.ignoring, .closing, .watching],
      let s := modTrack 1 (fun u => { u with state := n }) gantry
      s.tracks[(1 : TrackId)].state = n ∧ s.tracks[(1 : TrackId)].served = none) ∧
    (∀ k : ContextId, ({ gantry with passages := Vector.replicate 8 (some aPassage) }).passages[k] ≠ none) ∧
    (let s := setPassage 1 (some { aPassage with id := 302 }) (setPassage 0 (some aPassage) gantry)
     2 ≤ (allContexts.filter fun k => s.passages[k].any fun p => p.track == 1).length) ∧
    (let s := setPassage 0 (some aPassage) gantry
     (∀ j : ContextId, j < 1 → s.passages[j] ≠ none) ∧ s.passages[(1 : ContextId)] = none ∧
       (allContexts.filter fun k => s.passages[k].any fun p => p.track == 1).length < 2 ∧
       ∀ j : ContextId, ∀ p ∈ s.passages[j], p.id ≠ s.nextPassageId) := by decide +kernel

/-- A U queue of T1. -/
def queued (q : List Time) : State := setQueue 1 .u q travelling

theorem test_witness_ServedPulse :
    (∀ q ∈ [[], [900], [900, 901, 902], [900, 901, 902, 903]],
      let b := pulseNotice 301 .uOuter 1000 (queued q)
      b.tracks[(1 : TrackId)].queue (pairOf .uOuter) = q) ∧
    (travelling.tracks[(1 : TrackId)].state = .watching ∧
      travelling.tracks[(1 : TrackId)].served = some { id := 301, dir := .up }) ∧
    isFirst .up .uOuter = true ∧ isFirst .up .uInner = false ∧
    pairOf .uInner = .u := by decide +kernel

/-- The shortest interval of the U pair of 12.5 is 18,000 us. -/
theorem test_witness_ServedPulse_interval : travelling.tracks[(1 : TrackId)].plan.uSpacing * 1000000 / 111111 = 18000 ∧
    0 < 18000 ∧ 17999 < 18000 := by decide +kernel

theorem test_witness_TrackTimers_settle :
    (let s := modTrack 1 (fun u => { u with state := .settling, settleTimer := some 1000 }) gantry
     let b := taken (mo 1000) s
     b.device ≠ .failed ∧ b.tracks[(1 : TrackId)].state = .settling ∧
       expired b.tracks[(1 : TrackId)].settleTimer b.gantryTime = true) ∧
    (taken (mo 1000) gantry).tracks[(1 : TrackId)].state ≠ .settling := by decide +kernel

theorem test_witness_TrackTimers_ignore :
    (let s := modTrack 1 (fun u => { u with state := .ignoring, ignoreTimer := some 1000 }) gantry
     let b := taken (mo 1000) s
     b.device ≠ .failed ∧ b.tracks[(1 : TrackId)].state = .ignoring ∧
       expired b.tracks[(1 : TrackId)].ignoreTimer b.gantryTime = true) ∧
    (taken (mo 1000) gantry).tracks[(1 : TrackId)].state ≠ .ignoring := by decide +kernel

/-- The entry at 900 expires at 900 + 1,439,884 us. -/
theorem test_witness_TrackTimers_entry :
    (let b := taken (mo 1440784) (queued [900])
     b.device ≠ .failed ∧ b.tracks[(1 : TrackId)].queue .u = 900 :: [] ∧
       b.tracks[(1 : TrackId)].served = some { id := 301, dir := .up } ∧
       reached (plusUs 900 (b.tracks[(1 : TrackId)].plan.uSpacing * 1000000 / 1389)) b.gantryTime = true) ∧
    (let b := taken (mo 1440783) (queued [900])
     reached (plusUs 900 (b.tracks[(1 : TrackId)].plan.uSpacing * 1000000 / 1389)) b.gantryTime = false) ∧
    (taken (mo 2000) gantry).tracks[(1 : TrackId)].queue .u = [] := by decide +kernel

/-- The curtain of T1. -/
def scanning (f : Curtain → Curtain) : State := modCurtain 1 f gantry

theorem test_witness_ScanMessage :
    (taken (mo 2000) gantry).device ≠ .failed ∧ (taken (mo 2000) State.reset).tracks[(1 : TrackId)].state = .closed ∧
    (∀ blind ∈ [true, false],
      let b := taken (mo 2000) (scanning fun c => { c with blind := blind })
      b.tracks[(1 : TrackId)].state ≠ .closed ∧ b.tracks[(1 : TrackId)].state ≠ .settling ∧
        b.tracks[(1 : TrackId)].curtain.blind = blind) := by decide +kernel

/-- With settle scans 3 and with settle scans 1: the counts before the first, the second and the last scan. -/
theorem test_witness_ObjectDetector :
    (gantry.tracks[(1 : TrackId)].plan.settleScans = 3 ∧ gantry.tracks[(1 : TrackId)].curtain.detector = .clear ∧
      gantry.tracks[(1 : TrackId)].curtain.lit = 0) ∧
    (∀ n ∈ [1, 2],
      let c := (scanning fun c => { c with lit := n, enter := some 900 }).tracks[(1 : TrackId)].curtain
      c.lit ≠ 0 ∧ c.lit = n ∧ c.enter = some 900) ∧
    (∀ n ∈ [0, 1, 2],
      let c := (scanning fun c => { c with
        detector := .object, dark := n, enter := some 900, leave := some 950 }).tracks[(1 : TrackId)].curtain
      c.detector = .object ∧ c.dark = n ∧ c.enter = some 900 ∧ c.leave = some 950) ∧
    (modTrack 1 (fun u => { u with plan := { u.plan with settleScans := 1 } }) gantry).tracks[(1 : TrackId)].plan.settleScans
      ≤ 1 := by decide +kernel

/-- The dark run of a blind track, one microsecond short of a second and at a second; the stuck and the silence timer. -/
theorem test_witness_BlindTrack :
    (let c : Curtain := { Curtain.reset with darkRunStart := some 1000 }
     c.darkRunStart = some 1000 ∧ elapsed 1000 1000999 < 1000000 ∧ reached 1000 1000999 = true ∧
       1000000 ≤ elapsed 1000 1001000) ∧
    (let b := taken (mo 1000) (scanning fun c => { c with detector := .object, stuckTimer := some 1000 })
     b.device ≠ .failed ∧ b.tracks[(1 : TrackId)].curtain.detector = .object ∧
       expired b.tracks[(1 : TrackId)].curtain.stuckTimer b.gantryTime = true) ∧
    (taken (mo 1000) gantry).tracks[(1 : TrackId)].curtain.detector ≠ .object ∧
    (∀ blind ∈ [true, false],
      let b := taken (mo 1000) (scanning fun c => { c with blind := blind, silenceTimer := some 1000 })
      expired b.tracks[(1 : TrackId)].curtain.silenceTimer b.gantryTime = true ∧
        b.tracks[(1 : TrackId)].curtain.blind = blind) ∧
    expired (taken (mo 1000) gantry).tracks[(1 : TrackId)].curtain.silenceTimer 1000 = false := by decide +kernel

/-- The gantry with a passage in context 0. -/
def holding (p : Passage) : State := setPassage 0 (some p) gantry

theorem test_witness_PassageEnds :
    (let b := taken (mo 1000) (holding aPassage)
     b.device ≠ .failed ∧ b.passages[(0 : ContextId)] = some aPassage ∧ aPassage.tail = some ⟨.tail, 1000⟩ ∧
       reached 1000 b.gantryTime = true) ∧
    (let p := { aPassage with tail := some ⟨.silence, 1000⟩ }
     let b := taken (mo 1000) (holding p)
     b.passages[(0 : ContextId)] = some p ∧ p.tail = some ⟨.silence, 1000⟩ ∧ reached 1000 b.gantryTime = true) ∧
    (let b := taken (mo 999) { holding aPassage with gantryTime := 0 }
     reached 1000 b.gantryTime = false ∧ b.passages[(0 : ContextId)] = some aPassage) ∧
    ((taken (mo 999) gantry).passages[(0 : ContextId)].bind Passage.tail = none) := by decide +kernel

theorem test_witness_PassageEnds_completion :
    (let p := { aPassage with state := .finishing, outstanding := 0, close := some .cleared, tail := none }
     let s := holding p
     s.passages[(0 : ContextId)] = some p ∧ (∀ j : ContextId, j < 0 → ∀ q ∈ s.passages[j], q.id ≠ p.id) ∧
       p.state = .finishing ∧ p.outstanding = 0 ∧ (handRecord (.passage (passageRecordOf p)) s).1.device ≠ .failed) ∧
    aPassage.outstanding ≠ 0 := by decide +kernel

theorem test_witness_AccountingNotice :
    contextOf 302 travelling = none ∧ contextOf 301 travelling = some 0 ∧
    travelling.passages[(0 : ContextId)] = some aPassage ∧
    (∃ x ∈ aPassage.sightings, x.number = some 1 ∧ x.state = .planned) ∧
    (∀ x ∈ aPassage.sightings, ¬(x.number = some 2 ∧ x.state = .planned)) := by decide +kernel

theorem test_witness_WheelCountNotices :
    (contextOf 301 travelling = some 0 ∧ travelling.passages[(0 : ContextId)] = some aPassage ∧
      aPassage.state ≠ .finishing) ∧
    (let p := { aPassage with state := .finishing }
     contextOf 301 (holding p) = some 0 ∧ (holding p).passages[(0 : ContextId)] = some p ∧ p.state = .finishing) ∧
    contextOf 302 travelling = none := by decide +kernel

theorem test_witness_PlacingKeepsOrder :
    let at_ (q : Request) : Nat := (q.due - 0).toNat
    let l := [aRequest, { aRequest with station := 3 }, { aRequest with due := 1001 }]
    at_ aRequest < 2 ^ 47 ∧ (∀ q ∈ l, at_ q < 2 ^ 47) ∧
    List.Pairwise (fun (q q' : Request) => at_ q < at_ q' ∨ (q.due = q'.due ∧ q.station ≤ q'.station)) l := by
  decide +kernel

/-- Due 1,000 and tolerance 1,000: planned at 2,000 it is not late, at 2,001 it is; 47 and 48 requests stand. -/
theorem test_witness_Planning :
    reached (plusUs aRequest.due (aRequest.tolerance + 1)) (arrive (mo 2001) gantry).gantryTime = true ∧
    reached (plusUs aRequest.due (aRequest.tolerance + 1)) (arrive (mo 2000) gantry).gantryTime = false ∧
    gantry.stations[aRequest.station].state ≠ .offline ∧ State.reset.stations[aRequest.station].state = .offline ∧
    reached (plusUs aRequest.due (aRequest.tolerance + 1)) State.reset.gantryTime = false ∧
    (∀ n ∈ [47, 48], ({ gantry with schedule := List.replicate n aRequest }).schedule.length = n) := by decide +kernel

/-- At the due time, at the end of the tolerance, and at the lapse. -/
theorem test_witness_LapseOfRequest :
    (∀ late ∈ [0, 1000, 1001],
      let s := { gantry with schedule := [aRequest], gantryTime := plusUs aRequest.due late }
      earliestOf aRequest.station s = some aRequest ∧ s.stations[aRequest.station].state = .idle) ∧
    aRequest.tolerance < 2 ^ 46 ∧
    (let s := { gantry with schedule := [aRequest], gantryTime := 999 }
     earliestOf aRequest.station s = some aRequest ∧ reached aRequest.due s.gantryTime = false) ∧
    (let r := { aRequest with tolerance := 0 }
     let s := { gantry with schedule := [r], gantryTime := 1001 }
     earliestOf r.station s = some r ∧ s.gantryTime ≠ r.due) := by decide +kernel

theorem test_witness_DueRequests :
    (∀ n ∈ [1000, 2000, 2001],
      let b := taken (mo n) { gantry with schedule := [aRequest], dueTimer := some 1000 }
      b.device ≠ .failed ∧ expired b.dueTimer b.gantryTime = true ∧
        b.schedule.filter (fun r => reached (plusUs r.due (r.tolerance + 1)) b.gantryTime) =
          if n = 2001 then [aRequest] else []) ∧
    expired (taken (mo 999) gantry).dueTimer 999 = false ∧
    (let s := { gantry with schedule := [aRequest], gantryTime := 999 }
     earliestOf aRequest.station s = some aRequest ∧ reached aRequest.due s.gantryTime = false) ∧
    (let s := { gantry with schedule := [aRequest], dueTimer := some 1000 }
     s.dueTimer = some 1000 ∧ reached 1000 s.gantryTime = true ∧ s.schedule ≠ []) ∧ expired gantry.dueTimer gantry.gantryTime = false ∧
    (∀ r ∈ [aRequest, { aRequest with due := 5000 }],
      ((if reached r.due 1500 then plusUs r.due (r.tolerance + 1) else r.due) - (0 : Time)).toNat < 2 ^ 47) := by
  decide +kernel

theorem test_witness_MissOfPlacedRequest :
    ∀ r ∈ [aRequest, { aRequest with pid := 0, testSpeed := some 5000 }],
      let b := raise { code := .shotMissed, track := some (requestTrack r travelling), station := some r.station
                       unit := none, pid := some r.pid, detail := some (BitVec.ofNat 64 MissReason.busy.code) } travelling
      (handRecord (.capture
        { pid := r.pid, sighting := r.sighting, station := r.station, track := requestTrack r b
          dir := (passageOf r.pid b).map Passage.dir, headClass := (sightingOf r b).bind Sighting.headClass
          topBeam := (sightingOf r b).map Sighting.topBeam
          speed := if r.pid = 0 then r.testSpeed else (passageOf r.pid b).bind Passage.estimate
          due := r.due, start := none, outcome := .missed .busy, unsynced := false, exposures := [] }) b).1.device ≠
        .failed := by decide +kernel

/-- A cause of class NOTE and one of class FATAL. -/
def aCause (code : CauseCode) : Cause :=
  { code := code, track := some 1, station := none, unit := none, pid := none, detail := none }

/-- Code 2 is routed with a limit of 28, and lies above a limit of 2; an entry may ask for no note. -/
theorem test_witness_CausesTaken :
    (gantry.device ≠ .failed ∧ (aCause .wheelUnpaired).code.cls ≠ .fatal ∧ (aCause .wheelUnpaired).code.num = 2 ∧
      gantry.routing[2]? = some { note := true, signal := true }) ∧ State.reset.routingLimit ≤ 2 ∧
    ({ gantry with routing := List.replicate 28 { note := false, signal := true } }).routing[2]? =
      some { note := false, signal := true } ∧
    (aCause .doubleFault).code.cls = .fatal ∧ failed.device = .failed := by decide +kernel

theorem test_witness_CausesTaken_note :
    (placeOnce (.faultNote
      { code := .wheelUnpaired, cls := .note, original := none, time := gantry.gantryTime, track := some 1
        station := none, unit := none, pid := none, detail := none }) gantry).2.2 = [] ∧
    (placeOnce (.faultNote
      { code := .unrouted, cls := .note, original := some .wheelUnpaired, time := State.reset.gantryTime, track := some 1
        station := none, unit := none, pid := none, detail := none }) { State.reset with base := 0x10000 }).2.2 = [] := by
  decide +kernel

theorem test_witness_RowIsWritten :
    let s := gantry
    aNote.bodies.length = 1 ∧ (∀ body ∈ aNote.bodies, body.length ≤ 120) ∧ Memory.wf s.mem = true ∧
    s.device ≠ .failed ∧ s.base ≠ 0 ∧ s.writer.held = [] ∧ s.readErrors = [] ∧ s.writeErrors = [] ∧
    busRead (rowAddr s.writer.rowCursor s) 1 s = [0] ∧ s.writer.rowCursor ∉ s.writer.notices ∧
    s.writer.notices.length < 64 := by decide +kernel

/-- Five, six and eight held records, for a note and for another record; 63 and 64 rows in the notice queue. -/
theorem test_witness_FullQueuesOfTheWriter :
    (∀ n ∈ [7, 8], (List.replicate n aNote).length = n) ∧ aNote.isNote = true ∧
    (∀ n ∈ [5, 6], ((List.replicate n (Record.snapshot [] [] [] [])).filter fun x => !x.isNote).length = n) ∧
    (∀ n ∈ [63, 64], ∀ overflow ∈ [true, false],
      let w := { gantry.writer with notices := List.replicate n 5, overflow := overflow }
      (5 : RowId) ∈ w.notices ∧ (6 : RowId) ∉ w.notices ∧ w.notices.length = n ∧ w.overflow = overflow) := by
  decide +kernel

/-- Station S2 in a state, its timers at 1,000. -/
def stationed (x : StationState) : State :=
  modStation 2 (fun u => { u with state := x, restTimer := some 1000, wakeTimer := some 1000 }) gantry

theorem test_witness_StationEvents :
    (let b := taken (mo 1000) (stationed .waking)
     b.device ≠ .failed ∧ b.ports[(2 : StationId)].configured = true ∧ b.stations[(2 : StationId)].state = .waking ∧
       (∀ r ∈ b.schedule, r.station ≠ 2) ∧ expired b.stations[(2 : StationId)].wakeTimer b.gantryTime = true ∧
       b.stations[(2 : StationId)].run = none ∧
       (raise { code := .cameraSilent, track := some (stationTrack 2 b), station := some 2, unit := none, pid := none
                detail := none } b).device ≠ .failed) ∧
    (let b := taken (mo 1000) (stationed .idle)
     b.stations[(2 : StationId)].state = .idle ∧ expired b.stations[(2 : StationId)].restTimer b.gantryTime = true) ∧
    (taken (mo 999) gantry).stations[(2 : StationId)].state ≠ .waking ∧
    (taken (mo 999) State.reset).ports[(2 : StationId)].configured = false := by decide +kernel

/-- S2 with an open exposure that ends at 1,000, on which its run waits. -/
def exposed (r : Run) : State :=
  setOpenExposure 2 (some { number := 1, start := 700, finish := 1000 }) (running { r with wait := .exposure 1000 })

theorem test_witness_RunTimers_exposure :
    let beside (b : State) (x : Lingering) : Bool := x.station == 2 && reached x.finish b.gantryTime
    (∀ index ∈ [(0 : StepId), 31],
      let b := taken (mo 1000) (exposed { aRun with index := index })
      let r := { aRun with index := index, wait := .exposure 1000 }
      b.device ≠ .failed ∧ b.lingering.find? (beside b) = none ∧
        b.openExposures[(2 : StationId)] = some { number := 1, start := 700, finish := 1000 } ∧
        reached 1000 b.gantryTime = true ∧
        (arbitrationPass { b with openExposures := b.openExposures.set 2 none }).stations[(2 : StationId)].run = some r) ∧
    (let b := taken (mo 1000) (setOpenExposure 2 (some { number := 1, start := 700, finish := 1000 }) gantry)
     (arbitrationPass { b with openExposures := b.openExposures.set 2 none }).stations[(2 : StationId)].run = none) ∧
    (let b := taken (mo 999) { exposed aRun with gantryTime := 0 }
     b.lingering.find? (beside b) = none ∧
       ∀ e ∈ b.openExposures[(2 : StationId)], reached e.finish b.gantryTime = false) ∧
    (let b := taken (mo 1000) { exposed aRun with lingering := [⟨2, 1001⟩, ⟨2, 1000⟩] }
     b.lingering.find? (beside b) = some ⟨2, 1000⟩) := by decide +kernel

theorem test_witness_RunTimers_pause :
    (let r := { aRun with wait := .pause 1000 }
     let b := taken (mo 1000) (running r)
     b.stations[(2 : StationId)].run = some r ∧ r.wait = .pause 1000 ∧ reached 1000 b.gantryTime = true) ∧
    (taken (mo 1000) gantry).stations[(2 : StationId)].run = none ∧
    (let r := { aRun with wait := .await 1000 }
     let b := taken (mo 1000) (atStep (.await 3 500) r)
     b.stations[(2 : StationId)].run = some r ∧ currentStep r b = some (.await 3 500) ∧
       reached 1000 b.gantryTime = true) := by decide +kernel

theorem test_witness_StepKinds :
    (∀ p ∈ [Step.finish, .pause .time 100, .pause .distance 150, .loop 0 2, .expose 300 0 0 200, .expose 300 4 20 200,
        .mark 8, .await 3 500],
      let s := atStep p aRun
      s.stations[(2 : StationId)].state = .running ∧ s.stations[(2 : StationId)].run = some aRun ∧
        (s.programs[aRun.program]).map (fun q => q[aRun.index]) = some p) ∧ aRun.wait = .none ∧ aRun.loop = none ∧
    ((running aRun).programs[aRun.program]).map (fun q => q[aRun.index]) = none := by decide +kernel

/-- An exposure entry. -/
def anExposure : Exposure :=
  { start := 0, length := 0, unit := none, tag := 0, dark := false, glared := false, clipped := false
    truncated := false, received := false, outcome := .pending, card := none, tileLength := none }

/-- The loops of a run at step 0: 2 left, 1 left, a loop of another step; 7 and 8 exposures. -/
theorem test_witness_StepKinds_loops :
    (∀ left ∈ [1, 2], ({ aRun with loop := some (0, left) }).loop = some (aRun.index, left)) ∧
    ({ aRun with loop := some (3, 2) }).loop = some ((3 : StepId), 2) ∧ (3 : StepId) ≠ aRun.index ∧
    (∀ n ∈ [7, 8], ({ aRun with exposures := List.replicate n anExposure }).exposures.length = n) ∧
    (∃ x ∈ (allStations.filter fun x => (3 : Byte).getLsbD x.val && x != 2),
      ({ sender := x, pid := 301 } : Mark) ∉ (running aRun).stations[(2 : StationId)].marks) := by decide +kernel

/-- Unit L2 in a state, its timers at 1,000. -/
def lit (n : UnitState) : State :=
  modUnit 2 (fun u => { u with state := n, rechargeTimer := some 1000, pulseEnd := some 1000 }) gantry

theorem test_witness_StrobeUnits :
    (∀ n ∈ [UnitState.charging, .firing, .ready],
      let b := taken (mo 1000) (lit n)
      b.device ≠ .failed ∧ b.units[(2 : UnitId)].state = n ∧ expired b.units[(2 : UnitId)].rechargeTimer b.gantryTime = true ∧
        expired b.units[(2 : UnitId)].pulseEnd b.gantryTime = true ∧ b.units[(2 : UnitId)].users.getLsbD 0 = true) ∧
    (¬∀ st : StationId, (lit .firing).units[(2 : UnitId)].users.getLsbD st.val = true →
      (lit .firing).stations[st].state = .resting ∨ (lit .firing).stations[st].state = .offline) ∧
    (let s := { lit .firing with stations := Vector.replicate 8 { Station.reset with state := .resting } }
     ∀ st : StationId, s.units[(2 : UnitId)].users.getLsbD st.val = true →
       s.stations[st].state = .resting ∨ s.stations[st].state = .offline) := by decide +kernel

/-- A waiting flash request of S2 with the deadline 1,000. -/
def aFlash : FlashRequest :=
  { station := 2, number := 1, mask := 20, usable := 20, intensity := 4, length := 300, deadline := 1000 }

theorem test_witness_FlashesAndExposures :
    (let b := taken (mo 1000) { gantry with waiting := [aFlash] }
     b.device ≠ .failed ∧ b.waiting.find? (fun r => reached r.deadline b.gantryTime) = some aFlash) ∧
    (let b := taken (mo 999) { gantry with waiting := [aFlash], gantryTime := 0 }
     ∀ r ∈ b.waiting, reached r.deadline b.gantryTime = false) ∧
    (running aRun).stations[(2 : StationId)].run = some aRun := by decide +kernel

/-- S2 waits for the frame of tag 0 of exposure 1, whose timer stands at 1,000. -/
def awaiting (n : Nat) : State :=
  modPort 2 (fun p => { p with awaited := [{ number := 1, tag := 0, phase := .waiting 1000 }], silent := n }) (running aRun)

/-- A frame of 8 x 20 pixels. -/
def aFrame : Frame := { tag := 0, width := 8, height := 20, depth := 8, data := List.replicate 160 1 }

theorem test_witness_Frames :
    (let b := taken (mo 1000) (awaiting 0)
     b.device ≠ .failed ∧ b.ports[(2 : StationId)].configured = true ∧
       b.ports[(2 : StationId)].awaited.find? (fun a => a.tag == aFrame.tag) =
         some { number := 1, tag := 0, phase := .waiting 1000 } ∧
       (∀ a ∈ b.ports[(2 : StationId)].awaited, a.tag ≠ 1) ∧ b.stations[(2 : StationId)].plan = some aStationPlan ∧
       ((frameReceived 2 1 (modPort 2 (fun p => { p with
         silent := 0, awaited := p.awaited.filter fun a => a.number != 1 }) b)).stations[(2 : StationId)].run).isSome = true) ∧
    (aFrame.width ≤ 4096 ∧ aFrame.data.length = aFrame.width * aFrame.height * (aFrame.depth / 8)) ∧
    ¬({ aFrame with data := [] }).data.length = aFrame.width * aFrame.height ∧
    (taken (mo 1000) State.reset).ports[(2 : StationId)].configured = false := by decide +kernel

/-- The frame timer at 1,000, with one and with two silent exposures before it; 7 and 8 tiles in the queue. -/
theorem test_witness_Frames_timer :
    (∀ n ∈ [1, 2],
      let b := taken (mo 1000) (awaiting n)
      b.ports[(2 : StationId)].silent + 1 = n + 1 ∧ ∃ a ∈ b.ports[(2 : StationId)].awaited, a.number = 1 ∧
        a.phase = .waiting 1000 ∧ reached 1000 b.gantryTime = true) ∧
    (∀ a ∈ (taken (mo 1000) gantry).ports[(2 : StationId)].awaited, a.number ≠ 1) ∧
    (∀ n ∈ [7, 8], (moving fun m => { m with queue := List.replicate n aTile }).mover.queue.length = n) := by
  decide +kernel

/-- A window inside, across the left edge, across the right edge and beside a frame of 8 pixels. -/
theorem test_witness_CropWindow :
    clamp 2 4 8 = (2, 4) ∧ clamp (-2) 4 8 = (0, 2) ∧ clamp 6 4 8 = (6, 2) ∧ clamp 8 4 8 = (0, 0) ∧
    clamp (-4) 4 8 = (0, 0) ∧ (clamp 0 4 8).2 ≠ 0 := by decide +kernel

theorem test_witness_MoverReads :
    (let s := moving fun m => { m with condition := .ok, cursor := .at 64, queue := [aTile] }
     s.device ≠ .failed ∧ s.mover.queue ≠ [] ∧ s.mover.condition = .ok ∧ s.mover.cursor = .at 64 ∧ s.mover.phase = .idle) ∧
    (∀ a : Addr, gantry.mover.cursor ≠ .at a) ∧ gantry.mover.condition = .dry ∧
    (∀ withdrawn ∈ [[], [(64 : Addr)]],
      let b := taken (mo 2000) (moving fun m => { m with
        condition := .ok, cursor := .at 64, phase := .taking, queue := [aTile], withdrawn := withdrawn })
      b.device ≠ .failed ∧ .taking ∉ b.mover.abandoned ∧ b.mover.phase = .taking ∧ b.mover.cursor = .at 64 ∧
        b.mover.queue = aTile :: [] ∧ b.mover.withdrawn = withdrawn) ∧
    (∀ phase ∈ [Phase.following, .probing, .idle],
      let b := taken (mo 2000) (moving fun m => { m with cursor := .after 64, phase := phase })
      b.device ≠ .failed ∧ phase ∉ b.mover.abandoned ∧ b.mover.phase = phase ∧ b.mover.cursor = .after 64) ∧
    (∀ phase ∈ [Phase.taking, .following, .probing],
      phase ∈ (taken (mo 2000) (moving fun m => { m with phase := .taking, abandoned := [phase] })).mover.abandoned) := by
  refine ⟨by decide +kernel, fun a h => (nomatch h), by decide +kernel, by decide +kernel, by decide +kernel,
    by decide +kernel⟩

/-- The card of the tests, one that is the host's, one that does not sum to 0, and capacities of 4,095 and 4,096. -/
theorem test_witness_MoverReads_cards :
    (aCard.getD 0 0 = 0x5A ∧ aCard.foldl (· + ·) 0 = 0 ∧ 4096 ≤ leAt aCard 4 4) ∧ (aCard.set 0 0).getD 0 0 ≠ 0x5A ∧
    (aCard.set 1 0).foldl (· + ·) 0 ≠ 0 ∧
    (let c := ((aCard.set 4 0xFF).set 5 0x0F).set 1 0x28
     c.getD 0 0 = 0x5A ∧ c.foldl (· + ·) 0 = 0 ∧ leAt c 4 4 = 4095) ∧
    (let c := (aCard.set 5 0x10).set 1 0x26
     c.foldl (· + ·) 0 = 0 ∧ leAt c 4 4 = 4096) := by decide +kernel

theorem test_witness_MoverWrites :
    (let b := taken (mo 2000) writing
     b.device ≠ .failed ∧ b.mover.phase = .writing ∧
       b.mover.current = some { address := 0x200000, capacity := 8192, buffer := 0x300000, tile := aTile }) ∧
    ((taken (mo 2000) (marking 0 none)).mover.phase = .marking ∧ (taken (mo 2000) (marking 0 none)).mover.pendingHead = none ∧
      (taken (mo 2000) (marking 0 none)).mover.marked = some { address := 0x200000, next := 0 }) ∧
    ((taken (mo 2000) (marking 64 none)).mover.marked = some { address := 0x200000, next := 64 }) ∧
    ((taken (mo 2000) (marking 0 (some 96))).mover.pendingHead = some 96) ∧
    (taken (mo 2000) gantry).mover.phase = .idle := by decide +kernel

theorem test_witness_OrderFinish :
    Memory.wf gantry.mem = true ∧ gantry.device ≠ .failed ∧ gantry.writeErrors = [] ∧
    (OrderResult.ok (List.replicate 32 1)).bytes.length = 32 := by decide +kernel

/-- A free slot, an order that READY does not accept, a held slot, no base, and a bus error at the state byte. -/
theorem test_witness_OrdersNotAccepted :
    orderIn (.openTrack (mo 2000) 3 1) = some (3, .openTrack 1) ∧
    (slotFree 3 (taken (mo 2000) ready) = true ∧ (taken (mo 2000) ready).device ≠ .watching) ∧
    holdsSlot 3 (taken (mo 2000) draining) = true ∧ (taken (mo 2000) State.reset).base = 0 ∧
    (let b := taken { mo 2000 with writeErrors := [0x104C0] } gantry
     b.device ≠ .failed ∧ b.base ≠ 0 ∧ b.engine.executing = none ∧ holdsSlot 3 b = false ∧
       (slotAddr 3 b).toNat ∈ b.writeErrors) := by decide +kernel

theorem test_witness_OrdersThatRead :
    slotFree 3 (taken (mo 2000) ready) = true ∧ (taken (mo 2000) ready).device = .ready ∧
    slotFree 3 (taken (mo 2000) gantry) = true ∧ (1 : Nat) ≤ (16 : Byte).toNat ∧ (16 : Byte).toNat ≤ 16 ∧
    16 < (17 : Byte).toNat := by decide +kernel

theorem test_witness_TrackOrders :
    slotFree 3 (taken (mo 2000) gantry) = true ∧ (taken (mo 2000) gantry).device = .watching ∧ 4 ≤ (4 : Byte).toNat ∧
    (∀ enabled ∈ [true, false], ∀ settle ∈ [0, 100],
      let b := taken (mo 2000) (modTrack 1 (fun u => { u with
        state := .closed, plan := { u.plan with enabled := enabled, settleMs := settle } }) gantry)
      slotFree 3 b = true ∧ b.device = .watching ∧ b.tracks[(1 : TrackId)].state = .closed ∧
        b.tracks[(1 : TrackId)].plan.enabled = enabled ∧ b.tracks[(1 : TrackId)].plan.settleMs = settle) ∧
    (∀ n ∈ [3, 4],
      let b := taken (mo 2000) (modEngine (fun e => { e with parked := List.replicate n ⟨0, .track 0⟩ }) travelling)
      slotFree 3 b = true ∧ b.tracks[(1 : TrackId)].state ≠ .closed ∧ b.tracks[(1 : TrackId)].state ≠ .closing ∧
        b.passages[(0 : ContextId)] = some aPassage ∧ aPassage.track = 1 ∧ b.engine.parked.length = n) ∧
    (∀ j : ContextId, (taken (mo 2000) gantry).passages[j] = none) := by decide +kernel

theorem test_witness_AbandonPassage :
    (slotFree 3 (taken (mo 2000) travelling) = true ∧ (taken (mo 2000) travelling).device = .watching ∧
      contextOf 301 (taken (mo 2000) travelling) = some 0 ∧
      (taken (mo 2000) travelling).passages[(0 : ContextId)] = some aPassage ∧ aPassage.state ≠ .finishing) ∧
    contextOf 302 (taken (mo 2000) travelling) = none ∧
    (∀ close ∈ [CloseReason.cleared, .stalled, .abandoned, .trackClosed],
      let p := { aPassage with state := .finishing, close := some close, tail := none }
      let b := taken (mo 2000) (holding p)
      slotFree 3 b = true ∧ b.device = .watching ∧ contextOf 301 b = some 0 ∧ b.passages[(0 : ContextId)] = some p ∧
        p.close = some close) := by decide +kernel

/-- The speeds at the bounds; stations idle, resting, offline and running; 3 and 4 parked orders, 47 and 48 requests. -/
theorem test_witness_TestShot :
    (1389 ≤ (1389 : Word).toNat ∧ (111111 : Word).toNat ≤ 111111 ∧ ¬1389 ≤ (1388 : Word).toNat) ∧
    (∀ x ∈ [StationState.idle, .resting, .offline, .running],
      let b := taken (mo 2000) (stationed x)
      slotFree 3 b = true ∧ b.device = .watching ∧ b.stations[(2 : StationId)].state = x) ∧
    (∀ n ∈ [3, 4], ∀ k ∈ [47, 48],
      let b := taken (mo 2000) (modEngine (fun e => { e with parked := List.replicate n ⟨0, .track 0⟩ })
        { gantry with schedule := List.replicate k aRequest })
      slotFree 3 b = true ∧ b.engine.parked.length = n ∧ b.schedule.length = k ∧
        ¬∃ r ∈ b.schedule, r.pid = 0 ∧ r.station = 2) := by decide +kernel

theorem test_witness_ChainDrainSnapshot :
    (∀ phase ∈ [Phase.idle, .taking, .writing, .marking, .following, .probing],
      let b := taken (mo 2000) (moving fun m => { m with phase := phase })
      slotFree 3 b = true ∧ b.mover.phase = phase) ∧
    (let b := taken (mo 2000) draining
     slotFree 4 b = true ∧ ∃ q ∈ b.engine.parked, q.waits = .drain) ∧
    (let b := taken (mo 2000) (moving fun m => { m with drainContext := some 64 })
     slotFree 3 b = true ∧ (¬∃ q ∈ b.engine.parked, q.waits = .drain) ∧ b.mover.drainContext = some 64) ∧
    drained (taken (mo 2000) gantry) = true ∧
    (∀ n ∈ [3, 4],
      let b := taken (mo 2000) (modEngine (fun e => { e with parked := List.replicate n ⟨0, .track 0⟩ })
        (moving fun m => { m with queue := [aTile] }))
      slotFree 3 b = true ∧ drained b = false ∧ b.mover.drainContext = none ∧ b.engine.parked.length = n) := by
  decide +kernel

theorem test_witness_SetRest :
    (slotFree 3 (taken (mo 2000) gantry) = true ∧ (taken (mo 2000) gantry).device = .watching) ∧
    (slotFree 3 (taken (mo 2000) ready) = true ∧ (taken (mo 2000) ready).device = .ready) ∧
    (∀ x ∈ [StationState.offline, .resting, .waking, .idle, .running, .ending],
      (stationed x).stations[(2 : StationId)].state = x) := by decide +kernel

/-- The engine waits on a long read of slot 3. -/
def reading (r : LongRead) (s : State) : State := modEngine (fun e => { e with executing := some (3, r) }) s

theorem test_witness_OrderReads :
    (∀ r ∈ [LongRead.plan 64, .programs 1 64, .addresses 2 64], ∀ s ∈ [ready, gantry],
      (taken (mo 2000) (reading r s)).device ≠ .failed ∧
        (taken (mo 2000) (reading r s)).engine.executing = some (3, r)) ∧
    (taken (mo 2000) ready).engine.executing = none ∧ (taken (mo 2000) ready).device = .ready ∧
    (∀ n ∈ [15, 16], (moving fun m => { m with withdrawn := List.replicate n 64 }).mover.withdrawn.length = n) ∧
    (∃ c ∈ writing.mover.current, c.address = 0x200000) ∧ (∃ c ∈ (marking 0 none).mover.marked, c.address = 0x200000) ∧
    (0 : Addr) ∉ [(64 : Addr), 96] ∧ (∀ r ∈ (withdrawAll [64, 96] gantry.mover).2, r = .added ∨ r = .already) ∧
    (∃ r ∈ (withdrawAll [0x200000] writing.mover).2, r = .busy ∨ r = .full) := by decide +kernel

/-- A plan with its check word: no track enabled, eight stations, six units, the routing limit 2 (11.10). -/
def aPlan : List Byte :=
  [162, 168, 2, 0, 150, 0, 0xB0, 4] ++ List.replicate 72 0 ++ (List.replicate 8 ([0, 3, 0, 0, 0xE8, 3, 0, 0] ++ List.replicate 8 0 ++
    [4, 0, 4, 0, 0, 0, 0, 0, 100, 0] ++ List.replicate 54 0)).flatten ++ (List.replicate 6 [1, 0, 0xE8, 3]).flatten ++
    List.replicate 128 0

/-- A good plan; one that does not sum to 0; one that does, with a field out of range. -/
theorem test_witness_OrderReads_plan :
    (((List.range 436).map fun i => leAt aPlan (2 * i) 2).sum % 65536 = 0 ∧ firstBadField aPlan = none) ∧
    ((List.range 436).map fun i => leAt [1] (2 * i) 2).sum % 65536 ≠ 0 ∧
    (((List.range 436).map fun i => leAt [] (2 * i) 2).sum % 65536 = 0 ∧ firstBadField [] = some 2) := by decide +kernel

/-- A table whose step 0 of program 0 is FINISH, and an empty one, whose step 0 is of no kind. -/
theorem test_witness_OrderReads_programs :
    (∃ q, programsOf [6] 1 allPrograms = .ok q) ∧ programsOf [] 1 allPrograms = .error (0, 0, .unknownStep) :=
  ⟨⟨_, rfl⟩, rfl⟩

/-! ## Witnesses of the further clauses -/

/-- Five microseconds across the wrap of the count; half its range is the longest span (log 4). -/
theorem test_wrap :
    plusUs 0xFFFFFFFFFFFE 5 = 3 ∧ reached 0xFFFFFFFFFFFE 3 = true ∧ elapsed 0xFFFFFFFFFFFE 3 = 5 ∧
    reached 3 0xFFFFFFFFFFFE = false ∧ elapsed 3 0xFFFFFFFFFFFE = 0 ∧
    reached 0 (plusUs 0 (2 ^ 47 - 1)) = true ∧ reached 0 (plusUs 0 (2 ^ 47)) = false := by decide +kernel

/-- The 1 s of the blind-clearing watch across the wrap (R18): the flag stays at 999,999 us and clears at 1,000,000. -/
theorem test_dark_run_across_wrap :
    let c : Curtain := { Curtain.reset with blind := true, darkRunStart := some 0xFFFFFFFFFFF0 }
    (c.watchScan (plusUs 0xFFFFFFFFFFF0 999999) false).blind = true ∧
    (c.watchScan (plusUs 0xFFFFFFFFFFF0 1000000) false).blind = false := by decide +kernel

/-- A due request that another request overtakes keeps its due expiry (R58): S2 stands due, a request of S3 is placed, and
the expiry of S2 still hands the request over. -/
theorem test_due_expiry_is_kept :
    let s := { gantry with
      schedule := [aRequest], dueTimer := some 1000, programs := gantry.programs.set 1 (some (programOf (.pause .time 100))) }
    let t := placeRequest { aRequest with station := 3, due := 9000 } s
    expired t.dueTimer t.gantryTime = true ∧
    (after (.dueTimerExpiry (mo 1000)) t).stations[(2 : StationId)].run.isSome = true := by decide +kernel

/-- The second of two overlapping exposures of S2 leaves the first open beside it, to its own end (R112). -/
theorem test_overlapping_exposures :
    let s := beginExposure 2 100 none false (setOpenExposure 2 (some { number := 1, start := 700, finish := 2000 })
      (running aRun))
    s.lingering = [⟨2, 2000⟩] ∧ s.openExposures[(2 : StationId)] = some ⟨1, 1000, 1100⟩ ∧
    (let t := after (.exposureEnd (mo 1100) 2) s
     t.lingering = [⟨2, 2000⟩] ∧ t.openExposures[(2 : StationId)] = none) ∧
    (after (.exposureEnd (mo 2000) 2) (after (.exposureEnd (mo 1100) 2) s)).lingering = [] := by decide +kernel

/-- A read that a GIVE CHAIN abandoned completes after the next take began: its card is discarded (R147). -/
theorem test_abandoned_read :
    let s := moving fun m => { m with condition := .ok, cursor := .at 96, phase := .taking, queue := [aTile]
                                      abandoned := [.taking] }
    let t := after (.takeReadCompletion (mo 2000) (some aCard)) s
    t.mover.phase = .taking ∧ t.mover.abandoned = [] ∧
    (after (.takeReadCompletion (mo 2000) (some aCard)) t).mover.phase = .writing := by decide +kernel

/-- The 8 bytes of a step, at offset 0. -/
def stepBytes (b0 b1 b2 b3 b4 b5 b6 b7 : Byte) : List Byte := [b0, b1, b2, b3, b4, b5, b6, b7]

/-- The steps of R70 at the ends of their ranges, and beside them. -/
theorem test_steps :
    (stepAt (stepBytes 1 8 63 0 0xD0 7 0xD0 7) 0 5).toOption = some (.expose 2000 8 63 2000) ∧
    (∀ b ∈ [stepBytes 1 9 63 0 10 0 0 0, stepBytes 1 8 0 0 10 0 0 0, stepBytes 1 8 64 0 10 0 0 0, stepBytes 1 0 0 0 9 0 0 0,
        stepBytes 1 0 0 0 0xD1 7 0 0, stepBytes 1 0 0 0 10 0 0xD1 7, stepBytes 2 0 0 0 0 0 0 0,
        stepBytes 2 0 0 0 0x41 0x42 0x0F 0, stepBytes 2 1 0 0 0x61 0xEA 0 0, stepBytes 2 2 0 0 1 0 0 0,
        stepBytes 3 4 16 0 0 0 0 0, stepBytes 3 4 0 0 0 0 0 0, stepBytes 4 0 0 0 0 0 0 0, stepBytes 5 0 1 0 0 0 0 0,
        stepBytes 5 1 0 0 0 0 0 0, stepBytes 3 5 1 0 0 0 0 0, stepBytes 0 0 0 0 0 0 0 0, stepBytes 7 0 0 0 0 0 0 0],
      (stepAt b 0 5).toOption = none) ∧
    (stepAt (stepBytes 2 0 0 0 0x40 0x42 0x0F 0) 0 5).toOption = some (.pause .time 1000000) ∧
    (stepAt (stepBytes 2 1 0 0 0x60 0xEA 0 0) 0 5).toOption = some (.pause .distance 60000) ∧
    (stepAt (stepBytes 3 4 15 0 0 0 0 0) 0 5).toOption = some (.loop 4 15) ∧
    (stepAt (stepBytes 4 255 0 0 0 0 0 0) 0 5).toOption = some (.mark 255) ∧
    (stepAt (stepBytes 5 1 0xFF 0xFF 0 0 0 0) 0 5).toOption = some (.await 1 65535) := by decide +kernel

/-- A program that ends, one whose second step is of no kind, a program that the mask names and one that it does not. -/
theorem test_witness_OrdersThatRead_programs :
    (stepAt [6] 0 0).toOption = some .finish ∧ (stepAt [] 0 0).toOption = none ∧
    (let two := stepBytes 4 1 0 0 0 0 0 0 ++ [6]
     (stepAt two 0 0).toOption = some (.mark 1) ∧ (stepsFrom two 0 31 1).toOption = some (List.replicate 31 .finish) ∧
       (stepsFrom (stepBytes 4 1 0 0 0 0 0 0) 0 31 1).toOption = none ∧ (stepsFrom two 0 32 0).toOption.isSome = true ∧
       (stepsFrom [] 0 32 0).toOption = none ∧ (programsOf two 1 [1]).toOption = some [] ∧
       (programsOf two 3 [1]).toOption = none) ∧
    ((1 : BitVec 16).getLsbD 0 = true ∧ (1 : BitVec 16).getLsbD 1 = false) ∧
    ([((3 : ProgramId), programOf .finish), (5, programOf .finish)].map Prod.fst).Nodup := by decide +kernel

theorem test_witness_TakenAtMoment_times :
    (0 < 1 ∧ 2 ^ 47 - 1 < 2 ^ 47) ∧ (1000 : Time).toNat ≤ (2000 : Time).toNat ∧
    (2000 : Time).toNat - (1000 : Time).toNat < 2 ^ 47 := by decide +kernel

theorem test_witness_CardWriteStops_phases :
    (writing.mover.phase = .writing ∧ writing.mover.current.isSome = true) ∧
    ((marking 0 none).mover.phase = .marking ∧ (marking 0 none).mover.marked.isSome = true) ∧
    0 < runsLength ([] ++ [((64 : Addr), [(0 : Byte)])]) := by decide +kernel

/-- An idle chain and a board without a POSTED order: at work, and in STOPPING with and without an open passage. -/
theorem test_witness_LookAtMover_board :
    let ok (m : TileMover) : TileMover := { m with condition := .ok }
    let quiet (b : State) : Bool := b.base != 0 && b.mover.phase == .idle && b.mover.condition == .ok &&
      b.writer.held.isEmpty && b.engine.scan.isNone && b.engine.executing.isNone && b.readErrors.isEmpty &&
      allSlots.all fun slot => busRead (slotAddr slot b) 1 b != [1]
    (let b := setEnables 0 (taken (mo 2000) (modMover ok gantry))
     quiet b = true ∧ calm b = true) ∧
    (∀ s ∈ [gantry, travelling],
      let b := setEnables 0 (taken (mo 2000) (modMover ok { s with device := .stopping }))
      quiet b = true ∧ b.device = .stopping ∧ b.engine.parked = []) ∧
    (∀ k : ContextId, gantry.passages[k] = none) ∧ (∀ st : StationId, gantry.stations[st].run = none) ∧
    gantry.mover.queue = [] ∧ gantry.mover.current = none ∧ travelling.passages[(0 : ContextId)] ≠ none := by
  decide +kernel

/-- A LOOK of a part in FAILED, of one whose retry meets a bus error at its row, and of one that goes on to the board. -/
theorem test_witness_LookAtMover_writer :
    let holding := modWriter (fun w => { w with held := [aNote] }) gantry
    (setEnables 0 (taken (mo 2000) failed)).device = .failed ∧
    (let b := setEnables 0 (taken { mo 2000 with readErrors := [0x11000] } holding)
     b.device ≠ .failed ∧ (lookWriter (lookMover b)).device = .failed) ∧
    (let b := setEnables 0 (taken (mo 2000) holding)
     b.device ≠ .failed ∧ (lookWriter (lookMover b)).device ≠ .failed) := by decide +kernel

/-- A POSTED slot whose bytes can all be read, and one whose second byte cannot. -/
theorem test_witness_LookAtBoardAndLog_slot :
    let s := { gantry with mem := [(0x10480, 1)] }
    (holdsSlot 2 s = false ∧ (∀ i, i < 64 → (offsetAddr (slotAddr 2 s) i).toNat ∉ s.readErrors) ∧
      busRead (slotAddr 2 s) 1 s = [1]) ∧
    (let t := { s with readErrors := [0x10481] }
     holdsSlot 2 t = false ∧ (slotAddr 2 t).toNat ∉ t.readErrors ∧ busRead (slotAddr 2 t) 1 t = [1] ∧
       (offsetAddr (slotAddr 2 t) 1).toNat ∈ t.readErrors) :=
  ⟨⟨by decide +kernel, fun _ _ h => (nomatch h), by decide +kernel⟩, by decide +kernel⟩

/-- Order kinds of a slot: each of 11.3, none, and one above them. -/
theorem test_witness_LookAtBoardAndLog_kinds :
    (∀ n ∈ [0, 1, 2, 3, 4, 5, 6, 7, 8, 9, 10, 11, 12], ([1, byteOf n] : List Byte).getD 1 0 = byteOf n) ∧
    11 < (byteOf 12).toNat ∧
    slotOrder [1, 9, 0, 0, 2, 3, 0, 0, 0x83, 0x45, 1, 0] = .testShot 2 3 83331 := by decide +kernel

/-- Rows 0 and 1: both FREE, the second WRITTEN, the second not readable behind a WRITTEN one (R159, R160). -/
theorem test_witness_LookAtBoardAndLog_rows :
    let bad (s : State) (row : RowId) : Prop := (rowAddr row s).toNat ∈ s.readErrors
    let free (s : State) (row : RowId) : Prop := busRead (rowAddr row s) 1 s = [0]
    (¬bad gantry 0 ∧ ¬bad gantry 1 ∧ free gantry 0 ∧ free gantry 1) ∧
    (let s := { gantry with mem := [(0x11080, 1)] }
     ¬bad s 0 ∧ ¬bad s 1 ∧ free s 0 ∧ ¬free s 1) ∧
    (let s := { gantry with mem := [(0x11000, 1)], readErrors := [0x11080] }
     ¬bad s 0 ∧ bad s 1 ∧ ¬free s 0 ∧ readRows s [0, 1] = .busError 1) := by decide +kernel

/-- Held records: the first row not readable, and two records whose first finds its row FREE. -/
theorem test_witness_LookAtBoardAndLog_several :
    (let s := modWriter (fun w => { w with held := [aNote] }) { gantry with readErrors := [0x11000] }
     s.base ≠ 0 ∧ s.writer.held = aNote :: [] ∧
       readRows s (rowsFrom s.writer.rowCursor aNote.bodies.length) = .busError 0) ∧
    (let s := modWriter (fun w => { w with held := [aNote, aNote] }) gantry
     s.writer.held = aNote :: [aNote] ∧ readRows s (rowsFrom s.writer.rowCursor aNote.bodies.length) = .free ∧
       (writeRecord aNote { s with writer := { s.writer with held := [aNote] } }).2.2 = []) := by decide +kernel

/-- A sighting that lasts `us` microseconds. -/
def aSighting (us : Nat) : Sighting :=
  { number := none, enter := 100, leave := plusUs 100 us, topBeam := 20, headClass := none, speed := none
    state := .untimed, openRequests := 0 }

/-- A passage in MEASURING with untimed sightings. -/
def measuring (n : Nat) : Passage :=
  { aPassage with state := .measuring, estimate := none, sightings := List.replicate n (aSighting 4800) }

theorem test_witness_ServedPulse_passage :
    contextOf 302 travelling = none ∧
    (∀ p ∈ [aPassage, measuring 2],
      contextOf 301 (holding p) = some 0 ∧ (holding p).passages[(0 : ContextId)] = some p ∧ p.state ≠ .finishing) ∧
    aPassage.state = .running ∧ (measuring 2).state = .measuring ∧
    (let p := { aPassage with state := .finishing }
     contextOf 301 (holding p) = some 0 ∧ p.state = .finishing) := by decide +kernel

/-- At 83,333 mm/s and bounds of 150 and 1,200 mm: 1,800 us are 149 mm and 1,801 us 150 mm, 14,412 us are 1,200 mm and
14,413 us are 1,201 mm. -/
theorem test_witness_ServedPulse_heads :
    let head (us : Nat) : Bool :=
      let mm := 83333 * elapsed (aSighting us).enter (aSighting us).leave / 1000000
      decide (gantry.headMin ≤ mm ∧ mm ≤ gantry.headMax)
    head 1800 = false ∧ head 1801 = true ∧ head 14412 = true ∧ head 14413 = false := by decide +kernel

/-- No passage of the track takes reports; one in MEASURING with 11 and with 12 entries; one in RUNNING with 11 and 12. -/
theorem test_witness_ObjectDetector_report :
    (∀ k : ContextId, gantry.passages[k] = none) ∧
    (∀ n ∈ [11, 12], ∀ p ∈ [measuring n, { aPassage with sightings := List.replicate n (aSighting 4800) }],
      (holding p).passages[(0 : ContextId)] = some p ∧ p.track = 1 ∧ p.state ≠ .finishing ∧ p.sightings.length = n) ∧
    (measuring 11).state = .measuring ∧ aPassage.state = .running ∧ aPassage.estimate = some 83333 := by decide +kernel

/-- A CLOSING track without and with another passage, a WATCHING one; a passage that is served and one that is not. -/
theorem test_witness_PassageEnds_context :
    let closing := modTrack 1 (fun u => { u with state := .closing })
    ((closing gantry).tracks[(1 : TrackId)].state = .closing ∧ ∀ k : ContextId, (closing gantry).passages[k] = none) ∧
    ((closing travelling).passages[(0 : ContextId)] = some aPassage ∧ aPassage.track = 1) ∧
    gantry.tracks[(1 : TrackId)].state ≠ .closing ∧
    travelling.tracks[(1 : TrackId)].served = some { id := 301, dir := .up } ∧
    gantry.tracks[(1 : TrackId)].served = none := by decide +kernel

/-- A station that serves the passage with a program and without one; a passage with and without a waiting request. -/
theorem test_witness_Planning_revision :
    gantry.stations[(2 : StationId)].plan = some aStationPlan ∧ serves 1 .up aStationPlan = true ∧
    aStationPlan.programUp = some 1 ∧
    (let plan := { aStationPlan with programUp := none }
     serves 1 .up plan = true ∧ plan.programUp = none) ∧
    gantry.passages[(0 : ContextId)] = none ∧ travelling.passages[(0 : ContextId)] = some aPassage ∧
    (∀ r ∈ travelling.schedule, r.pid ≠ aPassage.id) ∧
    (∃ r ∈ ({ travelling with schedule := [aRequest] }).schedule, r.pid = aPassage.id) ∧
    (∃ x, aPassage.sightings.find? (fun x => x.number == some aRequest.sighting) = some x) :=
  ⟨by decide +kernel, by decide +kernel, by decide +kernel, by decide +kernel, by decide +kernel, by decide +kernel,
    by decide +kernel, by decide +kernel, _, rfl⟩

/-- A request that still waits, and one that was taken out before. -/
theorem test_witness_MissOfPlacedRequest_removal :
    (∃ q ∈ ({ gantry with schedule := [aRequest] }).schedule,
      q.pid = aRequest.pid ∧ q.sighting = aRequest.sighting ∧ q.station = aRequest.station) ∧
    ¬∃ q ∈ gantry.schedule, q.pid = aRequest.pid ∧ q.sighting = aRequest.sighting ∧ q.station = aRequest.station := by
  decide +kernel

/-- A note is a record of one row; card addresses at the ends of the offset field's range, and beside a step of 32. -/
theorem test_witness_RowIsWritten_records :
    (∃ body, aNote.bodies = [body] ∧ body.length ≤ 120) ∧
    (∃ before e after a, [anExposure, { anExposure with outcome := .tiled, card := some (64 : Addr) }] = before ++ e :: after ∧
      (∀ x ∈ before, ¬(x.outcome = .tiled ∨ x.outcome = .failed)) ∧ (e.outcome = .tiled ∨ e.outcome = .failed) ∧
      e.card = some a) ∧
    (∀ e ∈ [anExposure], ¬(e.outcome = .tiled ∨ e.outcome = .failed)) ∧
    (let whole (card base : Nat) : Bool :=
      let steps : Int := ((card : Int) - base) / 32
      decide ((card : Int) = (base : Int) + 32 * steps ∧ -8388607 ≤ steps ∧ steps ≤ 8388607)
     whole 64 32 = true ∧ whole (32 * 8388607) 0 = true ∧ whole (32 * 8388608) 0 = false ∧ whole 33 0 = false ∧
       whole 0 (32 * 8388607) = true ∧ whole 0 (32 * 8388608) = false) :=
  ⟨⟨_, rfl, by decide +kernel⟩, ⟨[anExposure], _, [], _, rfl, by decide +kernel, by decide +kernel, rfl⟩,
    by decide +kernel, by decide +kernel⟩

theorem test_witness_StationEvents_run :
    (taken (mo 1000) (running aRun)).device ≠ .failed ∧
    (taken (mo 1000) (running aRun)).stations[(2 : StationId)].run = some aRun := by decide +kernel

/-- A run whose first exposure is PENDING, or reported; it has ended its steps or not; at the close-out its station ends,
is OFFLINE, or the record's row cannot be read. -/
theorem test_witness_RunTimers_closeOut :
    (∀ e ∈ [anExposure, { anExposure with outcome := .dropped }], ∀ x ∈ [StationState.running, .ending, .offline],
      let r := { aRun with exposures := [e] }
      let s := modStation 2 (fun u => { u with state := x, run := some r }) travelling
      s.stations[(2 : StationId)].run = some r ∧ r.exposures[0]? = some e ∧ s.stations[(2 : StationId)].state = x) ∧
    anExposure.outcome = .pending ∧ gantry.stations[(2 : StationId)].run = none ∧
    (∀ x ∈ [StationState.ending, .offline],
      let s := modStation 2 (fun u => { u with state := x, run := some aRun }) travelling
      (closeOut 2 s).1.device ≠ .failed ∧ (closeOut 2 { s with readErrors := [0x11000] }).1.device = .failed ∧
        ((closeOut 2 s).1.stations[(2 : StationId)].state = if x = .ending then .idle else .offline)) := by decide +kernel

/-- S2 waits for the marks of S0 and S1: with both and with one; a mark of a sender in the set and of one not in it. -/
theorem test_witness_StepKinds_marks :
    let waits (marks : List Mark) : State :=
      modStation 2 (fun x => { x with marks := marks }) (atStep (.await 3 500) { aRun with wait := .await 2000 })
    (∀ marks ∈ [[⟨1, 301⟩], []],
      (waits marks).stations[(2 : StationId)].run = some { aRun with wait := .await 2000 } ∧
      currentStep { aRun with wait := .await 2000 } (waits marks) = some (.await 3 500)) ∧
    (let named := allStations.filter fun x => (3 : Byte).getLsbD x.val && x != 2
     (∀ x ∈ named, ({ sender := x, pid := 301 } : Mark) ∈ takeMark ⟨0, 301⟩ [⟨1, 301⟩]) ∧
     ∃ x ∈ named, ({ sender := x, pid := 301 } : Mark) ∉ takeMark ⟨0, 301⟩ []) ∧
    (∃ x ∈ [({ sender := 1, pid := 301 } : Mark)], x.sender = 1) ∧
    (∀ x ∈ [({ sender := 1, pid := 301 } : Mark)], x.sender ≠ 0) ∧
    (∀ r ∈ (running aRun).stations[(2 : StationId)].run, ∀ expiry, r.wait ≠ .await expiry) := by
  refine ⟨by decide +kernel, by decide +kernel, by decide +kernel, by decide +kernel, ?_⟩
  rintro r hr expiry h
  have : r = aRun := (Option.some.inj hr).symm
  rw [this] at h
  cases h

/-- A request that a pass grants, one that no unit serves before its deadline, and one whose deadline has come. -/
theorem test_witness_GlareInterlock :
    let pass (q : FlashRequest) : State :=
      arbitrationPass { running { aRun with wait := .flash } with waiting := insertFlash q gantry.waiting }
    aFlash ∉ (pass aFlash).waiting ∧
    (let q := { aFlash with usable := 0 }
     q ∈ (pass q).waiting ∧ reached q.deadline (pass q).gantryTime = true ∧ grantable q gantry = none) ∧
    (let q := { aFlash with usable := 0, deadline := 1001 }
     reached q.deadline (pass q).gantryTime = false) ∧
    (let at_ (q : FlashRequest) : Nat := (q.deadline - 0).toNat
     at_ aFlash < 2 ^ 47 ∧ List.Pairwise (fun (q q' : FlashRequest) =>
       at_ q < at_ q' ∨ (q.deadline = q'.deadline ∧ q.station ≤ q'.station)) [aFlash, { aFlash with station := 3 }]) := by
  decide +kernel

theorem test_witness_MoverWrites_after :
    (modMover (fun m => { m with pendingHead := some 96 }) writing).mover.pendingHead = some 96 ∧
    writing.mover.pendingHead = none ∧ writing.device ≠ .failed := by decide +kernel

theorem test_witness_OrderFinish_parked :
    gantry.engine.parked.filter (fun p => p.waits == .track 1) = [] ∧
    (park 3 (.track 1) gantry).engine.parked.filter (fun p => p.waits == .track 1) = [⟨3, .track 1⟩] := by decide +kernel

/-- A FREE context, a passage of another track, one in RUNNING and one in FINISHING with each close reason. -/
theorem test_witness_TrackOrders_passages :
    gantry.passages[(0 : ContextId)] = none ∧ (holding aPassage).passages[(0 : ContextId)] = some aPassage ∧
    aPassage.track ≠ 2 ∧ aPassage.track = 1 ∧ aPassage.state ≠ .finishing ∧
    (∀ close ∈ [CloseReason.cleared, .stalled, .abandoned, .trackClosed],
      let p := { aPassage with state := .finishing, close := some close }
      (holding p).passages[(0 : ContextId)] = some p ∧ p.track = 1 ∧ p.state = .finishing ∧ p.close = some close) := by
  decide +kernel

/-- Lists of another length than the order counts, and of that length with an address 0. -/
theorem test_witness_OrderReads_lists :
    ([64, 96, 128] : List Addr).length ≠ 2 ∧ ([64, 96] : List Addr).length = 2 ∧ ([64, 0] : List Addr).length = 2 ∧
    (0 : Addr) ∈ ([64, 0] : List Addr) ∧
    (after (.addressListReadCompletion (mo 2000) (some [64, 96, 128])) (reading (.addresses 2 64) gantry)).engine.executing =
      some (3, .addresses 2 64) := by decide +kernel

/-- The plan of the tests: S0 rests from the start where its rest time is not 0; code 0 has a routing entry. -/
theorem test_witness_OrderReads_accept :
    (stationPlanOf aPlan 0).restS = 0 ∧ (stationPlanOf ((aPlan.set 0x66 10)) 0).restS = 10 ∧
    (stationPlanOf aPlan 0).strobeMask.getLsbD 0 = false ∧ (stationPlanOf (aPlan.set 0x5C 1) 0).strobeMask.getLsbD 0 = true ∧
    0 < leAt aPlan 2 1 := by decide +kernel

/-- The ends of the ranges of a plan's first fields (R183). -/
theorem test_plan_ranges :
    fieldBad ([0, 0, 1] ++ List.replicate 869 0) 2 ∧ ¬fieldBad ([0, 0, 2] ++ List.replicate 869 0) 2 ∧
    ¬fieldBad ([0, 0, 64] ++ List.replicate 869 0) 2 ∧ fieldBad ([0, 0, 65] ++ List.replicate 869 0) 2 := by
  refine ⟨.inl ⟨rfl, by decide⟩, ?_, ?_, .inl ⟨rfl, by decide⟩⟩ <;> unfold fieldBad <;>
    rintro (⟨_, h⟩ | ⟨h, _⟩ | ⟨h, _⟩ | ⟨_, _, _, h, _⟩ | ⟨_, _, _, h, _⟩ | ⟨_, _, ⟨h, _⟩ | ⟨h, _⟩⟩ | ⟨_, _, _, h, _⟩) <;>
    first | exact h (by decide) | omega

/-! ## The planner's timer and its offers -/

/-- A placement offers the placed request alone (R58): S2 stands due, its expiry untaken, and a test request of S3 placed
now is handed over without it; a request of S2 behind the one that stands due is not handed over. -/
theorem test_placement_offers_the_placed_request :
    let s := { gantry with
      schedule := [aRequest], dueTimer := some 1000, programs := gantry.programs.set 1 (some (programOf (.pause .time 100))) }
    (let t := placeTest (testRequest 3 1 50000 s) s
     t.stations[(2 : StationId)].run = none ∧ t.stations[(3 : StationId)].run.isSome = true) ∧
    (placeTest (testRequest 2 1 50000 s) s).stations[(2 : StationId)].run = none := by decide +kernel

/-- A re-plan that misses one request LATE leaves the due timer at the due time of the other (R62): the request of S2
has lapsed by its new due time, that of S3 is to come. -/
theorem test_replan_sets_the_timer_afresh :
    let late := { aStationPlan with offset := 1, lead := 65535, tolerance := 0 }
    let s := setSchedule [{ aRequest with due := 5000000 }, { aRequest with station := 3, due := 6000000 }]
      (modStation 2 (fun x => { x with plan := some late }) travelling)
    let t := revise 0 1389 s
    t.schedule.map Request.station = [3] ∧ t.dueTimer = (t.schedule.map Request.due).head? ∧
      reached 1001 (t.dueTimer.getD 0) = true := by decide +kernel

/-- A removal offers the request that waited behind the removed one (R58): S2 is IDLE, the passage's request has lapsed and
its lapse is untaken, and a test request stands due behind it. Where the earlier one stays, nothing is offered. -/
theorem test_removal_offers_the_next_request :
    let s := { travelling with
      schedule := [{ aRequest with due := 500, tolerance := 100 }, { testRequest 2 1 50000 travelling with due := 900 }]
      programs := gantry.programs.set 1 (some (programOf (.pause .time 100))) }
    ((removal 301 .stalled s).stations[(2 : StationId)].run.map Run.pid = some 0 ∧ (removal 301 .stalled s).schedule = []) ∧
    (removal 302 .stalled s).stations[(2 : StationId)].run = none := by decide +kernel

/-- CARD_WRITE holds the chain before its note is placed (R206): the note's row cannot be read, and the device fails with
the chain HELD. -/
theorem test_card_write_holds_before_its_note :
    let s := after (.writeBusError { mo 2000 with readErrors := [0x11000] } 0) (marking 0 none)
    s.device = .failed ∧ s.failReason = .fatalCause ∧ s.mover.condition = .held ∧ s.mover.hold = some .cardWrite ∧
      s.mover.cursor = .after 0x200000 ∧ s.mover.drainContext = some 0x200000 := by decide +kernel

/-! ## Witnesses of the clauses over shared operations -/

/-- A scan that waits on a read, one of a part in FAILED, one that goes on, with look-again and without; a slot that is
executing. -/
theorem test_witness_LookAtBoardAndLog_scan :
    failed.device = .failed ∧ (gantry.device ≠ .failed ∧ gantry.engine.executing = none) ∧
    (reading (.plan 64) gantry).engine.executing ≠ none ∧ holdsSlot 3 (reading (.plan 64) gantry) = true ∧
    (∀ again ∈ [true, false],
      let s := modEngine (fun e => { e with scan := some 3, lookAgain := again }) gantry
      let t := visitSlots (allSlots.filter fun n => decide ((3 : SlotId) < n)) s
      t.device ≠ .failed ∧ t.engine.executing = none ∧ t.engine.lookAgain = again) := by decide +kernel

/-- The next passage id is held by no context, and by one; the id after 65,535 is 1 (R22). A station in each state. -/
theorem test_witness_UnservedPulse_id :
    let next (id : PassageId) : PassageId := if id = 65535 then 1 else id + 1
    let held (s : State) (id : PassageId) : Prop := ∃ j : ContextId, ∃ p ∈ s.passages[j], p.id = id
    ¬held gantry gantry.nextPassageId ∧
    (let s := { holding { aPassage with id := 65535 } with nextPassageId := 65535 }
     held s (Nat.repeat next 0 s.nextPassageId) ∧ ¬held s (Nat.repeat next 1 s.nextPassageId) ∧
       Nat.repeat next 1 s.nextPassageId = 1 ∧ s.passages[(1 : ContextId)] = none ∧
       unusedId 9 s.nextPassageId s = 1) ∧
    (∀ x ∈ [StationState.resting, .idle, .waking], (stationed x).stations[(2 : StationId)].state = x) := by
  decide +kernel

/-- A part whose log takes four rows from row 510 on; bus errors in a row's first bytes, and at its state byte alone. -/
theorem test_witness_RowIsWritten_rows :
    (let s := modWriter (fun w => { w with rowCursor := 510, notices := List.replicate 60 5 }) gantry
     Memory.wf s.mem = true ∧ s.device ≠ .failed ∧ s.base ≠ 0 ∧ s.writer.held = [] ∧ s.readErrors = [] ∧
       s.writeErrors = [] ∧ s.writer.notices.length + 4 ≤ 64 ∧
       ∀ i, i < 4 → busRead (rowAddr (s.writer.rowCursor + Fin.ofNat 512 i) s) 1 s = [0] ∧
         s.writer.rowCursor + Fin.ofNat 512 i ∉ s.writer.notices) ∧
    (∀ body ∈ [List.replicate 120 (1 : Byte), [], [1], []], body.length ≤ 120) ∧
    (∀ i ∈ [1, 127], (offsetAddr (rowAddr 0 gantry) i).toNat ∈ ({ gantry with writeErrors := [0x11001, 0x1107F] }).writeErrors) ∧
    (let s := { gantry with writeErrors := [0x11000] }
     (offsetAddr (rowAddr 0 s) 0).toNat ∈ s.writeErrors ∧
       ∀ i, i < 128 → 1 ≤ i → (offsetAddr (rowAddr 0 s) i).toNat ∉ s.writeErrors) := by decide +kernel

/-- A record behind a held one, with the base 0, and at a row that is FREE, WRITTEN, not readable. -/
theorem test_witness_FullQueuesOfTheWriter_place :
    let read (s : State) : RowsState := readRows s (rowsFrom s.writer.rowCursor aNote.bodies.length)
    failed.device = .failed ∧ (modWriter (fun w => { w with held := [aNote] }) gantry).writer.held ≠ [] ∧
    ({ gantry with base := 0 }).base = 0 ∧ (gantry.device ≠ .failed ∧ gantry.writer.held = [] ∧ gantry.base ≠ 0) ∧
    read gantry = .free ∧ read { gantry with mem := [(0x11000, 1)] } = .blocked 0 ∧
    read { gantry with readErrors := [0x11000] } = .busError 0 := by decide +kernel

/-- A station with a plan; a run with a test speed, and one whose passage has an estimate. -/
theorem test_witness_StepKinds_speed :
    gantry.stations[(2 : StationId)].plan = some aStationPlan ∧
    ({ aRun with testSpeed := some 5000 }).testSpeed = some 5000 ∧ aRun.testSpeed = none ∧
    contextOf aRun.pid travelling = some 0 ∧ travelling.passages[(0 : ContextId)] = some aPassage ∧
    aPassage.estimate = some 83333 := by decide +kernel

/-- A 16-bit frame of 3 x 2 pixels, the kept area at its right edge: row by row, each pixel as it stands in the frame. -/
theorem test_witness_CropWindow_pixels :
    let f : Frame := { tag := 0, width := 3, height := 2, depth := 16, data := (List.range 12).map byteOf }
    f.data.length = f.width * f.height * (f.depth / 8) ∧ 1 + 2 ≤ f.width ∧ 0 + 2 ≤ f.height ∧
    keptPixels f 1 0 2 2 = [2, 3, 4, 5, 8, 9, 10, 11] := by decide +kernel

/-- A read ends with a look pending at a DRY chain: without a cursor, at a card, after a card; and with none pending. -/
theorem test_witness_MoverReads_look :
    (∀ cursor ∈ [Cursor.absent, .at 64, .after 64],
      let s := moving fun m => { m with lookPending := true, cursor := cursor }
      s.mover.lookPending = true ∧ s.mover.condition = .dry ∧ s.mover.phase = .idle ∧ s.device ≠ .failed ∧
        s.mover.cursor = cursor) ∧
    gantry.mover.lookPending = false := by decide +kernel

/-- A card whose buffer lies beside it; a bus write with an error at no byte, at its first and at its last. -/
theorem test_witness_MoverWrites_memory :
    Memory.wf writing.mem = true ∧ aTile.bytes.length ≤ 2 ^ 64 ∧
    (∀ i, i < aTile.bytes.length → ∀ k, k < 32 → (offsetAddr 0x300000 i).toNat ≠ (offsetAddr 0x200000 k).toNat) ∧
    (∀ n ∈ [0, 2],
      let s := { gantry with writeErrors := [64 + n] }
      (∀ i, i < n → (offsetAddr 64 i).toNat ∉ s.writeErrors) ∧ n < ([1, 2, 3] : List Byte).length ∧
        (offsetAddr 64 n).toNat ∈ s.writeErrors) ∧
    (∀ i, i < ([1, 2, 3] : List Byte).length → (offsetAddr 64 i).toNat ∉ gantry.writeErrors) := by decide +kernel

/-- A mask that names S2 and not S3. -/
theorem test_witness_SetRest_mask :
    (4 : Byte).getLsbD (2 : StationId).val = true ∧ (4 : Byte).getLsbD (3 : StationId).val = false := by decide +kernel

/-- STOPPING with nothing open and with an open passage, and an end of an event outside FAILED. -/
theorem test_witness_EndOfEvent_tests :
    (let s := { gantry with device := .stopping }
     s.device = .stopping ∧ (∀ k : ContextId, s.passages[k] = none) ∧ (∀ st : StationId, s.stations[st].run = none) ∧
       s.mover.queue = [] ∧ s.mover.current = none) ∧
    (let s := { travelling with device := .stopping }
     s.device = .stopping ∧ s.passages[(0 : ContextId)] ≠ none) ∧
    gantry.device ≠ .stopping ∧ draining.device ≠ .failed := by decide +kernel

/-- The latch of CAUSE.ORDERS with its bit enabled and not enabled, and the condition holding before. -/
theorem test_witness_RegisterWords_message :
    let f := fun s : State => { s with latches := { s.latches with orders := true } }
    (irqCondition { gantry with enables := 2 } = false ∧ irqCondition (f { gantry with enables := 2 }) = true) ∧
    irqCondition (f gantry) = false ∧ irqCondition (f { gantry with enables := 2 }) = true := by decide +kernel

/-- A U queue of 3 entries and of 4. -/
theorem test_witness_UnservedPulse_queue :
    (queued [900, 901, 902]).tracks[(1 : TrackId)].uQueue.length < 4 ∧
    4 ≤ (queued [900, 901, 902, 903]).tracks[(1 : TrackId)].uQueue.length := by decide +kernel

/-- A slot an order row takes; a slot with and without a bus error at its state byte; the codes 2 and 255. -/
theorem test_witness_OrdersNotAccepted_scan :
    orderIn (.drain (mo 2000) 3) = some (3, .drain) ∧
    (let b := taken (mo 2000) gantry
     b.device ≠ .failed ∧ b.base ≠ 0 ∧ b.engine.executing = none ∧ holdsSlot 3 b = false) ∧
    (gantry.device ≠ .failed ∧ (slotAddr 3 gantry).toNat ∉ gantry.writeErrors) ∧
    (let s := { gantry with writeErrors := [0x104C0] }
     s.device ≠ .failed ∧ (slotAddr 3 s).toNat ∈ s.writeErrors) ∧
    2 ≤ (2 : Byte).toNat ∧ 2 ≤ (255 : Byte).toNat ∧ ready.device = .ready := by decide +kernel

/-- A passage id that is held and one that is not, a station with and without a plan, a program loaded and not. -/
theorem test_witness_TakenAtMoment_lookups :
    contextOf 301 travelling = some 0 ∧ passageOf aRequest.pid travelling = some aPassage ∧
    contextOf 302 travelling = none ∧ passageOf aRequest.pid gantry = none ∧
    gantry.stations[(2 : StationId)].plan = some aStationPlan ∧ State.reset.stations[(2 : StationId)].plan = none ∧
    (atStep .finish aRun).programs[aRun.program] = some (programOf .finish) ∧
    State.reset.programs[aRun.program] = none := by decide +kernel

/-- A card write of two bytes and its owner byte, stopped after two; a later write over an earlier one. -/
theorem test_witness_CardWriteStops_landed :
    Memory.wf gantry.mem = true ∧ (writing.mover.phase = .writing ∧ writing.mover.current.isSome = true) ∧
    ((marking 0 none).mover.phase = .marking ∧ (marking 0 none).mover.marked.isSome = true) ∧
    (let t := landRuns [(64, [1, 2]), (128, [0])] 2 { gantry with mem := [(128, 9)] }
     busRead 64 2 t = [1, 2] ∧ busRead 128 1 t = [9]) ∧
    busRead 64 1 (landRuns [(64, [1]), (64, [2])] 2 gantry) = [2] := by decide +kernel

/-- Eight held records: a routed cause and an unrouted one. -/
theorem test_witness_CausesTaken_double :
    let s := modWriter (fun w => { w with held := List.replicate 8 aNote }) gantry
    s.device ≠ .failed ∧ 8 ≤ s.writer.held.length ∧ (aCause .wheelUnpaired).code.cls ≠ .fatal ∧
    CauseCode.wheelUnpaired.num ≠ 0 ∧ CauseCode.wheelUnpaired.num < s.routingLimit ∧
    s.routing[CauseCode.wheelUnpaired.num]? = some { note := true, signal := true } ∧
    ({ s with routingLimit := 2 }).routingLimit ≤ CauseCode.wheelUnpaired.num := by decide +kernel

/-- The row at the cursor with its number queued already, and with a full notice queue. -/
theorem test_witness_RowIsWritten_notices :
    (∀ body ∈ aNote.bodies, body.length ≤ 120) ∧
    (∀ queue ∈ [[0], List.replicate 64 9],
      let s := modWriter (fun w => { w with notices := queue }) gantry
      Memory.wf s.mem = true ∧ s.writeErrors = [] ∧ rowsFrom s.writer.rowCursor 1 = [0] ∧
        s.writer.overflow = false) := by decide +kernel

/-- A bus error at the reason, at the third result byte, and at the state byte of slot 3. -/
theorem test_witness_OrderFinish_bus :
    Memory.wf gantry.mem = true ∧ (OrderResult.ok []).bytes.length ≤ 32 ∧
    (let s := { gantry with writeErrors := [0x104C2] }
     s.device ≠ .failed ∧ (offsetAddr (slotAddr 3 s) 2).toNat ∈ s.writeErrors) ∧
    (let s := { gantry with writeErrors := [0x104E2] }
     (offsetAddr (slotAddr 3 s) 2).toNat ∉ s.writeErrors ∧
       (∀ i, i < 2 → (offsetAddr (slotAddr 3 s) (32 + i)).toNat ∉ s.writeErrors) ∧
       (offsetAddr (slotAddr 3 s) (32 + 2)).toNat ∈ s.writeErrors) ∧
    (let s := { gantry with writeErrors := [0x104C0] }
     (offsetAddr (slotAddr 3 s) 2).toNat ∉ s.writeErrors ∧
       (∀ i, i < 32 → (offsetAddr (slotAddr 3 s) (32 + i)).toNat ∉ s.writeErrors) ∧
       (offsetAddr (slotAddr 3 s) 0).toNat ∈ s.writeErrors) := by decide +kernel

end Sys2Proof.Tests
end

section
/-! PROOFS. What a scan message does (01, R13). -/

namespace Sys2Proof.Machine

open Sys2Proof

/-! ## Scans at a track input unit (R13) -/

theorem exec_scanMessage (m : Moment) (t : TrackId) (beams : BitVec 24) (s : State) :
    exec (.scanMessage m t beams) s = execScanMessage m t beams s :=
  rfl

/-- CLOSED and SETTLING are the states in which a track does not take its inputs (1.1). -/
theorem TrackState.takesInputs_iff (x : TrackState) : x.takesInputs = true ↔ x ≠ .closed ∧ x ≠ .settling := by
  cases x <;> simp [TrackState.takesInputs]

/-- The silence timer of a track restarted by a scan (R13, R17). -/
def restartSilence (t : TrackId) (s : State) : State :=
  modCurtain t (fun c => { c with silenceTimer := some (plusUs s.gantryTime silenceScanUs) }) s

/-- The restart of the silence timer leaves the blind flag alone, so the flag before the scan decides who takes it. -/
theorem restartSilence_blind (t : TrackId) (s : State) :
    (restartSilence t s).tracks[t].curtain.blind = s.tracks[t].curtain.blind := by
  unfold restartSilence modCurtain
  rw [getElem_tracks_modTrack]

/-- A scan that is taken: after the restart, the watch of a blind track or the detector takes it. -/
theorem takeScan_eq (t : TrackId) (beams : BitVec 24) (s : State) :
    takeScan t beams s =
      if s.tracks[t].curtain.blind then
        modCurtain t (Curtain.watchScan s.gantryTime (!(litAbove s.tracks[t].plan.roofLine beams).isEmpty))
          (restartSilence t s)
      else detectScan t (litAbove s.tracks[t].plan.roofLine beams) (restartSilence t s) := by
  rw [← restartSilence_blind]
  rfl

theorem takeScan_of_sighted {t : TrackId} {s : State} (beams : BitVec 24) (h : s.tracks[t].curtain.blind = false) :
    takeScan t beams s = detectScan t (litAbove s.tracks[t].plan.roofLine beams) (restartSilence t s) := by
  rw [takeScan_eq, if_neg (Bool.eq_false_iff.1 h)]

theorem takeScan_of_blind {t : TrackId} {s : State} (beams : BitVec 24) (h : s.tracks[t].curtain.blind = true) :
    takeScan t beams s =
      modCurtain t (Curtain.watchScan s.gantryTime (!(litAbove s.tracks[t].plan.roofLine beams).isEmpty))
        (restartSilence t s) := by
  rw [takeScan_eq, if_pos h]

/-- A scan message outside FAILED, by whether the track takes its inputs. -/
theorem execScanMessage_of_live {m : Moment} {s : State} (t : TrackId) (beams : BitVec 24)
    (hlive : (taken m s).device ≠ .failed) :
    execScanMessage m t beams s = .next (conclude
      (if (taken m s).tracks[t].state.takesInputs then takeScan t beams (taken m s) else taken m s)) :=
  event_of_live hlive

theorem execScanMessage_of_not_taken {m : Moment} {t : TrackId} {s : State} (beams : BitVec 24)
    (hlive : (taken m s).device ≠ .failed)
    (hstate : (taken m s).tracks[t].state = .closed ∨ (taken m s).tracks[t].state = .settling) :
    execScanMessage m t beams s = .next (conclude (taken m s)) := by
  have hno : ¬(taken m s).tracks[t].state.takesInputs = true := by
    rw [TrackState.takesInputs_iff]
    exact fun ⟨hclosed, hsettling⟩ => hstate.elim hclosed hsettling
  rw [execScanMessage_of_live t beams hlive, if_neg hno]

theorem execScanMessage_of_taken {m : Moment} {t : TrackId} {s : State} (beams : BitVec 24)
    (hlive : (taken m s).device ≠ .failed)
    (hclosed : (taken m s).tracks[t].state ≠ .closed) (hsettling : (taken m s).tracks[t].state ≠ .settling) :
    execScanMessage m t beams s = .next (conclude (takeScan t beams (taken m s))) := by
  rw [execScanMessage_of_live t beams hlive, if_pos ((TrackState.takesInputs_iff _).2 ⟨hclosed, hsettling⟩)]

/-- Settles O28: the track's state decides whether the scan is taken, the blind flag who takes it. -/
theorem scanMessage : Obligations.ScanMessage := by
  unfold Obligations.ScanMessage
  intro m t beams s b u timed lit hlive
  rw [exec_scanMessage]
  refine ⟨fun hstate => ?notTaken, fun hclosed hsettling hblind => ?detector, fun hclosed hsettling hblind => ?watch⟩
  case notTaken => exact execScanMessage_of_not_taken beams hlive hstate
  case detector =>
    rw [execScanMessage_of_taken beams hlive hclosed hsettling, takeScan_of_sighted beams hblind]
    rfl
  case watch =>
    rw [execScanMessage_of_taken beams hlive hclosed hsettling, takeScan_of_blind beams hblind]
    rfl

end Sys2Proof.Machine
end

section
/-! PROOFS. Accounting notices (02, R34), unpaired and implausible notices (02, R26). -/

namespace Sys2Proof.Machine

open Sys2Proof

/-! ## The sighting an accounting notice finds (R34) -/

@[simp] theorem openSighting_iff (n : Nat) (x : Sighting) :
    openSighting n x = true ↔ x.number = some n ∧ x.state = .planned := by
  simp [openSighting]

/-- A PLANNED sighting stays PLANNED while it has open requests left. -/
theorem Sighting.account_of_planned {x : Sighting} (h : x.state = .planned) :
    x.account = { x with
      openRequests := x.openRequests - 1
      state := if x.openRequests ≤ 1 then .accounted else .planned } := by
  rw [Sighting.account, h]

/-- A passage after one of its requests for the sighting numbered `n` is accounted for (R34). -/
def Passage.accounted (n : Nat) (p : Passage) : Passage :=
  { p with
    sightings := p.sightings.map fun x => if openSighting n x then x.account else x
    outstanding := p.outstanding - 1 }

theorem Passage.accounted_eq (n : Nat) (p : Passage) :
    p.accounted n = { p with
      outstanding := p.outstanding - 1
      sightings := p.sightings.map fun x =>
        if x.number = some n ∧ x.state = .planned then { x with
          openRequests := x.openRequests - 1
          state := if x.openRequests ≤ 1 then .accounted else .planned }
        else x } := by
  have hsightings : ∀ x : Sighting, (if openSighting n x then x.account else x) =
      if x.number = some n ∧ x.state = .planned then { x with
        openRequests := x.openRequests - 1
        state := if x.openRequests ≤ 1 then .accounted else .planned }
      else x := by
    intro x
    by_cases hopen : x.number = some n ∧ x.state = .planned
    · rw [if_pos ((openSighting_iff n x).2 hopen), if_pos hopen, Sighting.account_of_planned hopen.2]
    · rw [if_neg fun h => hopen ((openSighting_iff n x).1 h), if_neg hopen]
  simp only [Passage.accounted, hsightings]

/-! ## Accounting notices (R34) -/

theorem account_of_no_context {id : PassageId} {s : State} (n : Nat) (h : contextOf id s = none) :
    account id n s = s := by
  rw [account, h]

theorem account_of_context {id : PassageId} {s : State} {k : ContextId} {p : Passage} (n : Nat)
    (hk : contextOf id s = some k) (hp : s.passages[k] = some p) :
    account id n s =
      if p.sightings.any (openSighting n) then completeIfDone id (setPassage k (some (p.accounted n)) s) else s := by
  simp only [account, hk, hp]
  rfl

/-- Settles O32: the notice is taken where its sighting is still PLANNED, and nowhere else. -/
theorem accountingNotice : Obligations.AccountingNotice := by
  unfold Obligations.AccountingNotice
  intro id n s
  refine ⟨account_of_no_context n, fun k p hk hp => ⟨fun hnone => ?unchanged, fun hfound => ?counted⟩⟩
  case unchanged =>
    rw [account_of_context n hk hp, if_neg]
    simpa using hnone
  case counted =>
    rw [account_of_context n hk hp, if_pos (by simpa using hfound), Passage.accounted_eq]
    rfl

/-! ## The passage that takes a notice: MEASURING or RUNNING (R26) -/

theorem Passage.isOpen_iff (p : Passage) : p.isOpen = true ↔ p.state ≠ .finishing := by
  simp [Passage.isOpen]

theorem openContext_of_no_context {id : PassageId} {s : State} (h : contextOf id s = none) :
    openContext id s = none := by
  rw [openContext, h]

theorem openContext_of_open {id : PassageId} {s : State} {k : ContextId} {p : Passage}
    (hk : contextOf id s = some k) (hp : s.passages[k] = some p) (hstate : p.state ≠ .finishing) :
    openContext id s = some (k, p) := by
  simp only [openContext, hk, hp, if_pos (p.isOpen_iff.2 hstate)]

theorem openContext_of_finishing {id : PassageId} {s : State} {k : ContextId} {p : Passage}
    (hk : contextOf id s = some k) (hp : s.passages[k] = some p) (hstate : p.state = .finishing) :
    openContext id s = none := by
  simp only [openContext, hk, hp, if_neg fun h => p.isOpen_iff.1 h hstate]

/-! ## Unpaired and implausible notices (R26) -/

theorem unpairedNotice_of_not_open {id : PassageId} {s : State} (h : openContext id s = none) :
    unpairedNotice id s = s := by
  rw [unpairedNotice, h]

theorem unpairedNotice_of_open {id : PassageId} {s : State} {k : ContextId} {p : Passage}
    (h : openContext id s = some (k, p)) :
    unpairedNotice id s = setPassage k (some { p with unpaired := saturate (p.unpaired + 1) }) s := by
  rw [unpairedNotice, h]

theorem implausibleNotice_of_not_open {id : PassageId} {s : State} (h : openContext id s = none) :
    implausibleNotice id s = s := by
  rw [implausibleNotice, h]

theorem implausibleNotice_of_open {id : PassageId} {s : State} {k : ContextId} {p : Passage}
    (h : openContext id s = some (k, p)) :
    implausibleNotice id s = setPassage k (some { p with implausible := saturate (p.implausible + 1) }) s := by
  rw [implausibleNotice, h]

/-- Settles O33: both notices count at a passage in MEASURING or RUNNING and find no other. -/
theorem wheelCountNotices : Obligations.WheelCountNotices := by
  unfold Obligations.WheelCountNotices
  intro id s
  refine ⟨fun k p hk hp => ⟨fun hstate => ?counted, fun hstate => ?finishing⟩, fun hnone => ?noContext⟩
  case counted =>
    have hopen := openContext_of_open hk hp hstate
    exact ⟨unpairedNotice_of_open hopen, implausibleNotice_of_open hopen⟩
  case finishing =>
    have hshut := openContext_of_finishing hk hp hstate
    exact ⟨unpairedNotice_of_not_open hshut, implausibleNotice_of_not_open hshut⟩
  case noContext =>
    have hshut := openContext_of_no_context hnone
    exact ⟨unpairedNotice_of_not_open hshut, implausibleNotice_of_not_open hshut⟩

end Sys2Proof.Machine
end

section
/-! PROOFS. The NOTICE register (08, R167; 09, R173). -/

namespace Sys2Proof.Machine

open Sys2Proof

/-! ## The word a read returns, and the queue it leaves (R167) -/

theorem noticeWord_of_empty {s : State} (h : s.writer.notices = []) : noticeWord s = 65535 := by
  rw [noticeWord, h]

theorem noticeWord_of_cons {s : State} {row : RowId} {rest : List RowId} (h : s.writer.notices = row :: rest) :
    noticeWord s = BitVec.ofNat 32 row.val := by
  rw [noticeWord, h]

theorem popNotice_of_empty {w : ReportWriter} (h : w.notices = []) : popNotice w = w := by
  rw [popNotice, h]

theorem popNotice_of_cons {w : ReportWriter} {row : RowId} {rest : List RowId} (h : w.notices = row :: rest) :
    popNotice w = { w with notices := rest, overflow := if rest = [] then false else w.overflow } := by
  simp only [popNotice, h, List.isEmpty_iff]

/-! ## Reads and writes of NOTICE -/

theorem exec_noticeRead (m : Moment) (s : State) :
    exec (.noticeRead m) s =
      .next (modWriter popNotice (emit (.registerRead (noticeWord (taken m s))) (taken m s))) :=
  rfl

theorem exec_registerWriteIgnored (m : Moment) (register : ReadOnlyRegister) (value : Word) (s : State) :
    exec (.registerWriteIgnored m register value) s = .next (taken m s) :=
  rfl

theorem exec_noticeRead_of_empty {m : Moment} {s : State} (h : (taken m s).writer.notices = []) :
    exec (.noticeRead m) s = .next (emit (.registerRead 65535) (taken m s)) := by
  have hpop : popNotice (emit (.registerRead 65535) (taken m s)).writer = (taken m s).writer := popNotice_of_empty h
  rw [exec_noticeRead, noticeWord_of_empty h, modWriter, hpop]
  rfl

theorem exec_noticeRead_of_cons {m : Moment} {s : State} {row : RowId} {rest : List RowId}
    (h : (taken m s).writer.notices = row :: rest) :
    exec (.noticeRead m) s = .next { emit (.registerRead (BitVec.ofNat 32 row.val)) (taken m s) with
      writer := { (taken m s).writer with
        notices := rest, overflow := if rest = [] then false else (taken m s).writer.overflow } } := by
  have hpop : popNotice (emit (.registerRead (BitVec.ofNat 32 row.val)) (taken m s)).writer =
      { (taken m s).writer with
        notices := rest, overflow := if rest = [] then false else (taken m s).writer.overflow } := popNotice_of_cons h
  rw [exec_noticeRead, noticeWord_of_cons h, modWriter, hpop]

/-- Settles O20: the queue alone decides what a read returns and leaves, whatever the device state. -/
theorem noticeRead : Obligations.NoticeRead := by
  unfold Obligations.NoticeRead
  intro m s b
  refine ⟨fun hempty => ?empty, fun row rest hcons => ?oldest, fun value => ?write⟩
  case empty => exact exec_noticeRead_of_empty hempty
  case oldest => exact exec_noticeRead_of_cons hcons
  case write => exact exec_registerWriteIgnored m .notice value s

end Sys2Proof.Machine
end

section
/-! PROOFS. What every step keeps of the stores: an invariant of host memory and of the sizes of the queues and lists is
kept by every shared operation and by every command, where one byte written and a change within the sizes keep it. -/

namespace Sys2Proof.Machine

open Sys2Proof

/-! ## The stores -/

/-- The parts of the state that the invariants of a step speak of. -/
structure Stores where
  mem      : Memory
  schedule : List Request
  tracks   : Vector TrackUnit 4
  mover    : TileMover
  writer   : ReportWriter
  engine   : OrderEngine

def State.stores (s : State) : Stores :=
  { mem := s.mem, schedule := s.schedule, tracks := s.tracks, mover := s.mover, writer := s.writer, engine := s.engine }

/-- A list is no longer than it was, or within its size. -/
def Fits {α : Type} (size : Nat) (before after : List α) : Prop := after.length ≤ max size before.length

theorem Fits.refl {α : Type} (size : Nat) (l : List α) : Fits size l l := le_max_right _ _

theorem Fits.of_le_length {α : Type} {size : Nat} {l l' : List α} (h : l'.length ≤ l.length) : Fits size l l' :=
  h.trans (le_max_right _ _)

theorem Fits.of_le_size {α : Type} {size : Nat} {l l' : List α} (h : l'.length ≤ size) : Fits size l l' :=
  h.trans (le_max_left _ _)

theorem Fits.nil {α : Type} (size : Nat) (l : List α) : Fits size l [] := Nat.zero_le _

theorem Fits.filter {α : Type} (size : Nat) (l : List α) (p : α → Bool) : Fits size l (l.filter p) :=
  .of_le_length (List.length_filter_le p l)

theorem Fits.tail {α : Type} {size : Nat} {l rest : List α} {a : α} (h : l = a :: rest) : Fits size l rest :=
  .of_le_length (by rw [h]; exact Nat.le_succ _)

/-- The axle queues of a track fit (R8). -/
def TrackFits (u u' : TrackUnit) : Prop := Fits 4 u.uQueue u'.uQueue ∧ Fits 4 u.dQueue u'.dQueue

theorem TrackFits.refl (u : TrackUnit) : TrackFits u u := ⟨.refl _ _, .refl _ _⟩

theorem TrackFits.empty {u u' : TrackUnit} (hu : u'.uQueue = []) (hd : u'.dQueue = []) : TrackFits u u' :=
  ⟨hu ▸ .nil _ _, hd ▸ .nil _ _⟩

theorem trackFits_drop (u : TrackUnit) : TrackFits u u.drop := .empty rfl rfl

/-- The ready tile queue and the withdraw list fit (R129, R148). -/
def MoverFits (m m' : TileMover) : Prop := Fits 8 m.queue m'.queue ∧ Fits 16 m.withdrawn m'.withdrawn

/-- The held records and the notice queue fit (R161, R166). -/
def WriterFits (w w' : ReportWriter) : Prop := Fits 8 w.held w'.held ∧ Fits 64 w.notices w'.notices

/-- The stores after a change fit, host memory being as it was. -/
structure StoresFit (x y : Stores) : Prop where
  mem      : y.mem = x.mem
  schedule : Fits 48 x.schedule y.schedule
  tracks   : ∀ t : TrackId, TrackFits x.tracks[t] y.tracks[t]
  mover    : MoverFits x.mover y.mover
  writer   : WriterFits x.writer y.writer
  parked   : Fits 4 x.engine.parked y.engine.parked

theorem StoresFit.refl (x : Stores) : StoresFit x x :=
  ⟨rfl, .refl _ _, fun _ => .refl _, ⟨.refl _ _, .refl _ _⟩, ⟨.refl _ _, .refl _ _⟩, .refl _ _⟩

/-- An invariant of the stores that a byte written and a change that fits keep. -/
structure StoreInvariant (Q : Stores → Prop) : Prop where
  write : ∀ (x : Stores) (a : Nat) (b : Byte), Q x → Q { x with mem := Memory.write x.mem a b }
  fits  : ∀ x y : Stores, StoresFit x y → Q x → Q y

/-- The invariant holds in a state. -/
def Holds (Q : Stores → Prop) (s : State) : Prop := Q s.stores

/-! ## Room for a held record (R161) -/

/-- A record has room in the held queue only where it holds fewer than 8 (R161). -/
theorem length_lt_of_hasRoom {r : Record} {held : List Record} (h : hasRoom r held = true) : held.length < 8 := by
  unfold hasRoom at h
  split at h
  · simpa using h
  · simp only [Bool.and_eq_true, decide_eq_true_eq] at h
    exact h.1

namespace StoreInvariant

variable {Q : Stores → Prop} (inv : StoreInvariant Q)
include inv

/-! ## Updates -/

theorem setSchedule {l : List Request} {s : State} (hl : Fits 48 s.schedule l) (h : Holds Q s) :
    Holds Q (setSchedule l s) :=
  inv.fits _ _ { StoresFit.refl s.stores with schedule := hl } h

theorem modTrack (t : TrackId) {f : TrackUnit → TrackUnit} {s : State} (hf : TrackFits s.tracks[t] (f s.tracks[t]))
    (h : Holds Q s) : Holds Q (modTrack t f s) := by
  refine inv.fits _ _ { StoresFit.refl s.stores with tracks := fun q => ?_ } h
  by_cases hq : t = q
  · subst hq
    show TrackFits s.tracks[t] (Machine.modTrack t f s).tracks[t]
    rw [getElem_tracks_modTrack]
    exact hf
  · show TrackFits s.tracks[q] (Machine.modTrack t f s).tracks[q]
    rw [getElem_tracks_modTrack_of_ne f s hq]
    exact .refl _

/-- An update that leaves the axle queues of a track alone. -/
theorem modTrack_of_queues (t : TrackId) {f : TrackUnit → TrackUnit} {s : State}
    (hu : (f s.tracks[t]).uQueue = s.tracks[t].uQueue) (hd : (f s.tracks[t]).dQueue = s.tracks[t].dQueue)
    (h : Holds Q s) : Holds Q (Machine.modTrack t f s) :=
  inv.modTrack t ⟨hu ▸ .refl _ _, hd ▸ .refl _ _⟩ h

theorem modCurtain (t : TrackId) (f : Curtain → Curtain) {s : State} (h : Holds Q s) :
    Holds Q (modCurtain t f s) :=
  inv.modTrack_of_queues t rfl rfl h

theorem modMover {f : TileMover → TileMover} {s : State} (hf : MoverFits s.mover (f s.mover)) (h : Holds Q s) :
    Holds Q (modMover f s) :=
  inv.fits _ _ { StoresFit.refl s.stores with mover := hf } h

/-- An update of the mover that leaves its queue and its withdraw list alone. -/
theorem modMover_of_lists {f : TileMover → TileMover} {s : State} (hq : (f s.mover).queue = s.mover.queue)
    (hw : (f s.mover).withdrawn = s.mover.withdrawn) (h : Holds Q s) : Holds Q (Machine.modMover f s) :=
  inv.modMover ⟨hq ▸ .refl _ _, hw ▸ .refl _ _⟩ h

theorem modWriter {f : ReportWriter → ReportWriter} {s : State} (hf : WriterFits s.writer (f s.writer))
    (h : Holds Q s) : Holds Q (modWriter f s) :=
  inv.fits _ _ { StoresFit.refl s.stores with writer := hf } h

/-- An update of the writer that leaves its held records and its notices alone. -/
theorem modWriter_of_lists {f : ReportWriter → ReportWriter} {s : State} (hh : (f s.writer).held = s.writer.held)
    (hn : (f s.writer).notices = s.writer.notices) (h : Holds Q s) : Holds Q (Machine.modWriter f s) :=
  inv.modWriter ⟨hh ▸ .refl _ _, hn ▸ .refl _ _⟩ h

theorem modEngine {f : OrderEngine → OrderEngine} {s : State} (hf : Fits 4 s.engine.parked (f s.engine).parked)
    (h : Holds Q s) : Holds Q (modEngine f s) :=
  inv.fits _ _ { StoresFit.refl s.stores with parked := hf } h

omit inv in
theorem foldl {α : Type} {f : State → α → State} (hf : ∀ s a, Holds Q s → Holds Q (f s a)) (l : List α) {s : State}
    (h : Holds Q s) : Holds Q (l.foldl f s) := by
  induction l generalizing s with
  | nil => exact h
  | cons a l ih => exact ih (hf s a h)

omit inv in
/-- A change of what is no store, with the message it may send. -/
theorem withIrq {f : State → State} {s : State} (h : Holds Q (f s)) : Holds Q (withIrq f s) := by
  unfold Machine.withIrq
  split <;> exact h

/-! ## Host memory -/

theorem writeUntilError (errors : List Nat) (bytes : List Byte) : ∀ (a : Addr) (x : Stores), Q x →
    Q { x with mem := (Memory.writeUntilError errors x.mem a bytes).1 } := by
  induction bytes with
  | nil => exact fun _ _ h => h
  | cons b bs ih =>
    intro a x h
    unfold Memory.writeUntilError
    split
    · exact h
    · exact ih (a + 1) _ (inv.write x a.toNat b h)

theorem busWrite (a : Addr) (bytes : List Byte) {s : State} (h : Holds Q s) : Holds Q (busWrite a bytes s).1 :=
  inv.writeUntilError s.writeErrors bytes a s.stores h

theorem landRuns (runs : List (Addr × List Byte)) (n : Nat) {s : State} (h : Holds Q s) :
    Holds Q (landRuns runs n s) := by
  induction runs generalizing n s with
  | nil => exact h
  | cons r rest ih =>
    unfold Machine.landRuns
    split
    · exact h
    · exact ih _ (inv.writeUntilError [] (r.2.take n) r.1 s.stores h)

theorem arrive (m : Moment) {s : State} (h : Holds Q s) : Holds Q (arrive m s) := by
  have cells : ∀ (l : List Host.Cell) (x : Stores), Q x → Q { x with mem := Memory.writeCells x.mem l } := by
    intro l
    induction l with
    | nil => exact fun _ h => h
    | cons c l ih => exact fun x h => ih _ (inv.write x c.1 c.2 h)
  exact cells m.hostWrites s.stores h

theorem stopCardWrite (whole : Bool) {s : State} (h : Holds Q s) : Holds Q (stopCardWrite whole s) := by
  unfold Machine.stopCardWrite
  split
  · exact h
  · exact inv.landRuns _ _ h

/-! ## The entry into FAILED -/

theorem hush {s : State} (h : Holds Q s) : Holds Q (hush s) := by
  refine inv.fits s.stores _ ⟨rfl, .nil _ _, fun t => ?_, ⟨.nil _ _, .refl _ _⟩, ⟨.nil _ _, .refl _ _⟩, .nil _ _⟩ h
  have hdrop : (Machine.hush s).tracks[t] = s.tracks[t].drop := by simp [Machine.hush]
  show TrackFits s.tracks[t] (Machine.hush s).tracks[t]
  rw [hdrop]
  exact trackFits_drop _

theorem enterFailed (reason : FailReason) {s : State} (h : Holds Q s) : Holds Q (enterFailed reason s) := by
  unfold Machine.enterFailed
  split
  · exact h
  · exact inv.hush (inv.stopCardWrite true (withIrq h))

/-! ## Records and causes -/

theorem appendNotice (row : RowId) {s : State} (h : Holds Q s) : Holds Q (appendNotice row s).1 := by
  unfold Machine.appendNotice
  split
  · exact h
  · split
    · next hroom =>
      refine withIrq (inv.modWriter ⟨.refl _ _, .of_le_size ?_⟩ h)
      simp only [List.length_append, List.length_singleton]
      omega
    · split
      · exact h
      · exact inv.modWriter_of_lists rfl rfl h

theorem writeRows (kind lost : Nat) (sequence : BitVec 32) (rows : List (RowId × List Byte)) (part : Nat)
    (unqueued : Option RowId) {s : State} (h : Holds Q s) :
    Holds Q (writeRows kind lost sequence rows part unqueued s).1 := by
  induction rows generalizing part unqueued s with
  | nil => exact h
  | cons r rest ih =>
    unfold Machine.writeRows
    dsimp only
    have hbody := inv.busWrite (offsetAddr (rowAddr r.1 s) 1) (rowBytes kind part lost sequence r.2) h
    generalize Machine.busWrite (offsetAddr (rowAddr r.1 s) 1) (rowBytes kind part lost sequence r.2) s = p at hbody ⊢
    have hstate := inv.busWrite (rowAddr r.1 s) [1] hbody
    generalize Machine.busWrite (rowAddr r.1 s) [1] p.1 = q at hstate ⊢
    split
    · split
      · exact ih _ _ (inv.appendNotice _ hstate)
      · split
        · exact inv.write q.1.stores _ _ hstate
        · exact hstate
    · exact hbody

theorem writeRecord (r : Record) {s : State} (h : Holds Q s) : Holds Q (writeRecord r s).1 := by
  have hrows := inv.writeRows r.kindCode s.writer.lost s.writer.sequence
    ((rowsFrom s.writer.rowCursor r.bodies.length).zip r.bodies) 1 none h
  unfold Machine.writeRecord
  dsimp only
  split
  · exact hrows
  · exact inv.modWriter_of_lists rfl rfl hrows

theorem holdRecord (r : Record) (full : Option RowId) {s : State} (h : Holds Q s) :
    Holds Q (holdRecord r full s).1 := by
  unfold Machine.holdRecord
  split
  · next hroom =>
    have := length_lt_of_hasRoom hroom
    refine inv.modWriter ⟨.of_le_size ?_, .refl _ _⟩ h
    simp only [List.length_append, List.length_singleton]
    omega
  · split
    · exact h
    · exact inv.modWriter_of_lists rfl rfl h

theorem placeOnce (r : Record) {s : State} (h : Holds Q s) : Holds Q (placeOnce r s).1 := by
  unfold Machine.placeOnce placeInRows
  split
  · exact h
  · split
    · exact inv.holdRecord r none h
    · split
      · exact h
      · exact inv.holdRecord r _ h
      · exact inv.writeRecord r h

theorem raiseTo (n : Nat) (c : Cause) {s : State} (h : Holds Q s) : Holds Q (raiseTo n c s) := by
  induction n generalizing c s with
  | zero => exact h
  | succ n ih =>
    unfold Machine.raiseTo
    split
    · exact h
    · split
      · exact inv.enterFailed _ h
      · have noted : Holds Q (if (routeOf c.code s).note = true then
            (Machine.placeOnce (.faultNote (noteOf c s)) s).2.2.foldl (fun s c => Machine.raiseTo n c s)
              (Machine.placeOnce (.faultNote (noteOf c s)) s).1 else s) := by
          split
          · exact foldl (fun s c h => ih c h) _ (inv.placeOnce _ h)
          · exact h
        dsimp only
        split
        · exact withIrq noted
        · exact noted

theorem raise (c : Cause) {s : State} (h : Holds Q s) : Holds Q (raise c s) := inv.raiseTo 8 c h

theorem handRecord (r : Record) {s : State} (h : Holds Q s) : Holds Q (handRecord r s).1 :=
  foldl (fun _ c h => inv.raise c h) _ (inv.placeOnce r h)

theorem retryPass (n : Nat) {s : State} (h : Holds Q s) : Holds Q (retryPass n s) := by
  induction n generalizing s with
  | zero => exact h
  | succ n ih =>
    unfold Machine.retryPass
    split
    · exact h
    · next r rest hheld =>
      split
      · exact h
      · split
        · exact h
        · exact inv.raise _ h
        · exact ih (foldl (fun _ c h => inv.raise c h) _
            (inv.writeRecord r (inv.modWriter ⟨.tail hheld, .refl _ _⟩ h)))

theorem lookWriter {s : State} (h : Holds Q s) : Holds Q (lookWriter s) := by
  unfold Machine.lookWriter
  split
  · exact h
  · exact inv.retryPass _ h

/-! ## Finishes, passages, misses -/

theorem writeFinish (slot : SlotId) (res : OrderResult) {s : State} (h : Holds Q s) :
    Holds Q (writeFinish slot res s) := by
  unfold Machine.writeFinish
  split
  · exact h
  · dsimp only
    have hreason := inv.busWrite (offsetAddr (slotAddr slot s) 2) [byteOf res.reason.code] h
    generalize Machine.busWrite (offsetAddr (slotAddr slot s) 2) [byteOf res.reason.code] s = p at hreason ⊢
    have hbytes := inv.busWrite (offsetAddr (slotAddr slot s) 32) (padTo 32 res.bytes) hreason
    generalize Machine.busWrite (offsetAddr (slotAddr slot s) 32) (padTo 32 res.bytes) p.1 = q at hbytes ⊢
    have hstate := inv.busWrite (slotAddr slot s) [if res.done then stateDone else stateRefused] hbytes
    generalize Machine.busWrite (slotAddr slot s) [if res.done then stateDone else stateRefused] q.1 = w at hstate ⊢
    split
    · split
      · split
        · exact withIrq hstate
        · exact inv.raise _ hstate
      · exact inv.raise _ hbytes
    · exact inv.raise _ hreason

theorem finishParked (w : ParkedFor) (res : OrderResult) {s : State} (h : Holds Q s) :
    Holds Q (finishParked w res s) :=
  foldl (fun _ p h => inv.writeFinish p.slot res (inv.modEngine (.filter _ _ _) h)) _ h

theorem enterClosed (t : TrackId) (mode : CloseMode) {s : State} (h : Holds Q s) : Holds Q (enterClosed t mode s) :=
  inv.finishParked _ _ (inv.modTrack t (trackFits_drop _) h)

omit inv in
theorem discardMarks (pid : PassageId) {s : State} (h : Holds Q s) : Holds Q (discardMarks pid s) :=
  foldl (f := fun s st => modStation st (fun x => { x with marks := x.marks.filter fun m => m.pid != pid }) s)
    (fun _ _ h => h) allStations h

theorem contextFreed (t : TrackId) {s : State} (h : Holds Q s) : Holds Q (contextFreed t s) := by
  unfold Machine.contextFreed
  split
  · exact inv.enterClosed t .after h
  · exact h

theorem completePassage (k : ContextId) (p : Passage) {s : State} (h : Holds Q s) :
    Holds Q (completePassage k p s) := by
  have hrecord := inv.handRecord (.passage (passageRecordOf p)) h
  unfold Machine.completePassage
  dsimp only
  split
  · exact hrecord
  · exact inv.contextFreed _ (discardMarks p.id hrecord)

theorem completeIfDone (id : PassageId) {s : State} (h : Holds Q s) : Holds Q (completeIfDone id s) := by
  unfold Machine.completeIfDone
  split
  · exact h
  · split
    · exact h
    · split
      · exact inv.completePassage _ _ h
      · exact h

theorem account (pid : PassageId) (n : Nat) {s : State} (h : Holds Q s) : Holds Q (account pid n s) := by
  unfold Machine.account
  split
  · exact h
  · split
    · exact h
    · split
      · exact inv.completeIfDone pid h
      · exact h

theorem unschedule (r : Request) {s : State} (h : Holds Q s) : Holds Q (unschedule r s) :=
  inv.setSchedule (.filter _ _ _) h

theorem declareMiss (placed : Bool) (reason : MissReason) (r : Request) {s : State} (h : Holds Q s) :
    Holds Q (declareMiss placed reason r s) := by
  have hcause := inv.raise (missCause reason r s) h
  unfold Machine.declareMiss
  dsimp only
  generalize Machine.raise (missCause reason r s) s = s1 at hcause ⊢
  have hrecord := inv.handRecord (.capture (missRecord reason r s1)) hcause
  generalize (Machine.handRecord (.capture (missRecord reason r s1)) s1).1 = s2 at hrecord ⊢
  split
  · exact hrecord
  · have hremoved : Holds Q (if placed = true then Machine.unschedule r s2 else s2) := by
      split
      · exact inv.unschedule r hrecord
      · exact hrecord
    generalize (if placed = true then Machine.unschedule r s2 else s2) = s3 at hremoved ⊢
    split
    · exact inv.finishParked _ _ hremoved
    · split
      · exact inv.account _ _ hremoved
      · exact hremoved

theorem missAll (reason : MissReason) (rs : List Request) {s : State} (h : Holds Q s) :
    Holds Q (missAll reason rs s) := by
  refine foldl (fun s r h => ?_) _ h
  split
  · exact inv.declareMiss true reason r h
  · exact h

/-! ## Exposures and runs -/

omit inv in
theorem stationRests (st : StationId) {s : State} (h : Holds Q s) : Holds Q (stationRests st s) := by
  refine foldl (fun s u h => ?_) _ h
  split <;> exact h

omit inv in
theorem stationWakes (st : StationId) {s : State} (h : Holds Q s) : Holds Q (stationWakes st s) := by
  refine foldl (fun s u h => ?_) _ h
  split <;> exact h

omit inv in
theorem beginExposure (st : StationId) (length : Nat) (unit : Option UnitId) (dark : Bool) {s : State}
    (h : Holds Q s) : Holds Q (beginExposure st length unit dark s) := by
  unfold Machine.beginExposure
  split <;> exact h

omit inv in
theorem arbitrationPass {s : State} (h : Holds Q s) : Holds Q (arbitrationPass s) := by
  refine foldl (fun s r h => ?_) _ h
  split
  · exact h
  · exact beginExposure _ _ _ _ h

theorem denyFlash (r : FlashRequest) {s : State} (h : Holds Q s) : Holds Q (denyFlash r s) :=
  inv.raise _ (beginExposure _ _ _ _ h)

theorem requestFlash (r : FlashRequest) {s : State} (h : Holds Q s) : Holds Q (requestFlash r s) := by
  have hpass : Holds Q (Machine.arbitrationPass { s with waiting := insertFlash r s.waiting }) := arbitrationPass h
  unfold Machine.requestFlash
  dsimp only
  split
  · exact inv.denyFlash r hpass
  · exact hpass

omit inv in
theorem stepDone (st : StationId) (r : Run) {s : State} (h : Holds Q s) : Holds Q (stepDone st r s).1 := by
  unfold Machine.stepDone
  split <;> exact h

theorem runFault (st : StationId) (r : Run) (detail : Nat) {s : State} (h : Holds Q s) :
    Holds Q (runFault st r detail s).1 := inv.raise _ h

theorem stepExpose (st : StationId) (r : Run) (length intensity : Nat) (mask : BitVec 6) (wait : Nat) {s : State}
    (h : Holds Q s) : Holds Q (stepExpose st r length intensity mask wait s).1 := by
  unfold Machine.stepExpose
  split
  · exact inv.runFault _ _ _ h
  · split
    · exact beginExposure _ _ _ _ h
    · exact inv.requestFlash _ h

theorem stepLoop (st : StationId) (r : Run) (target : StepId) (count : Nat) {s : State} (h : Holds Q s) :
    Holds Q (stepLoop st r target count s).1 := by
  unfold Machine.stepLoop
  split
  · exact h
  · split
    · split
      · exact h
      · exact stepDone _ _ h
    · exact inv.runFault _ _ _ h

omit inv in
theorem stepAwait (st : StationId) (r : Run) (mask : Byte) (timeout : Nat) {s : State} (h : Holds Q s) :
    Holds Q (stepAwait st r mask timeout s).1 := by
  unfold Machine.stepAwait
  dsimp only
  split
  · exact stepDone _ _ h
  · exact h

theorem takeStep (st : StationId) {s : State} (h : Holds Q s) : Holds Q (takeStep st s).1 := by
  unfold Machine.takeStep
  split
  · exact h
  · split
    · split
      · exact inv.runFault _ _ _ h
      · exact inv.stepExpose _ _ _ _ _ _ h
      · exact h
      · exact inv.stepLoop _ _ _ _ h
      · exact stepDone _ _ h
      · exact stepAwait _ _ _ _ h
      · exact h
    · exact h

omit inv in
theorem deliverMark (st : StationId) (m : Mark) {s : State} (h : Holds Q s) : Holds Q (deliverMark st m s).1 := by
  unfold Machine.deliverMark
  dsimp only
  split
  · split
    · exact stepDone _ _ h
    · exact h
  · exact h

theorem closeOut (st : StationId) {s : State} (h : Holds Q s) : Holds Q (closeOut st s).1 := by
  unfold Machine.closeOut
  split
  · exact h
  · next r _ =>
    split
    · dsimp only
      have hrecord := inv.handRecord (.capture (runRecord st r)) h
      generalize (Machine.handRecord (.capture (runRecord st r)) s).1 = s1 at hrecord ⊢
      have hnotice : Holds Q (if r.pid = 0 then
          testEnded st (outcomeByte r.outcome.capture r.unsynced) r.exposures.length s1
          else Machine.account r.pid r.sighting s1) := by
        split
        · exact inv.finishParked _ _ hrecord
        · exact inv.account _ _ hrecord
      generalize (if r.pid = 0 then
          testEnded st (outcomeByte r.outcome.capture r.unsynced) r.exposures.length s1
          else Machine.account r.pid r.sighting s1) = s2 at hnotice ⊢
      split
      · exact hnotice
      · split <;> exact hnotice
    · exact h

theorem offer (st : StationId) {s : State} (h : Holds Q s) : Holds Q (offer st s).1 := by
  unfold Machine.offer
  split
  · exact h
  · split
    · exact inv.unschedule _ h
    · exact h

theorem handleTask (t : Task) {s : State} (h : Holds Q s) : Holds Q (handleTask t s).1 := by
  cases t with
  | step st => exact inv.takeStep st h
  | deliver st m => exact deliverMark st m h
  | closeOut st => exact inv.closeOut st h
  | offer st => exact inv.offer st h

theorem drainTo (n : Nat) (ts : List Task) {s : State} (h : Holds Q s) : Holds Q (drainTo n ts s) := by
  induction n generalizing ts s with
  | zero => cases ts <;> exact h
  | succ n ih =>
    cases ts with
    | nil => exact h
    | cons t ts => exact ih _ (inv.handleTask t h)

theorem drain (ts : List Task) {s : State} (h : Holds Q s) : Holds Q (drain ts s) := inv.drainTo _ ts h

/-! ## The end of an event -/

theorem settle {s : State} (h : Holds Q s) : Holds Q (settle s) := by
  have hdrain : Holds Q (settleDrain s) := by
    unfold settleDrain
    split
    · split
      · exact inv.finishParked _ _ (inv.modMover_of_lists rfl rfl h)
      · exact inv.finishParked _ _ h
      · exact h
    · exact h
  unfold Machine.settle settleStopping
  split <;> exact hdrain

/-- The tests of `settle` are made unless the device is FAILED. -/
theorem settleUnlessFailed {s : State} (h : Holds Q s) : Holds Q (if s.device = .failed then s else Machine.settle s) := by
  split
  · exact h
  · exact inv.settle h

theorem conclude {s : State} (h : Holds Q s) : Holds Q (conclude s) := by
  have hsettled := inv.settleUnlessFailed h
  unfold Machine.conclude
  dsimp only
  generalize (if s.device = .failed then s else Machine.settle s) = t at hsettled ⊢
  split
  · exact inv.hush hsettled
  · exact hsettled

theorem taken (m : Moment) {s : State} (h : Holds Q s) : Holds Q (taken m s) := by
  have harrived := inv.arrive m h
  unfold Machine.taken catchUp
  generalize Machine.arrive m s = s1 at harrived ⊢
  split
  · exact harrived
  · have hdrained : Holds Q (Machine.drain s1.undone { s1 with undone := [] }) := inv.drain _ harrived
    dsimp only
    split
    · exact inv.hush hdrained
    · exact hdrained

theorem event {m : Moment} {f : State → State} {s t : State} (hf : ∀ s, Holds Q s → Holds Q (f s)) (h : Holds Q s)
    (ht : event m f s = .next t) : Holds Q t := by
  unfold Machine.event at ht
  injection ht with ht
  subst ht
  split
  · exact inv.taken m h
  · exact inv.conclude (hf _ (inv.taken m h))

theorem plainEvent {m : Moment} {f : State → State} {s t : State} (hf : ∀ s, Holds Q s → Holds Q (f s))
    (h : Holds Q s) (ht : plainEvent m f s = .next t) : Holds Q t := by
  unfold Machine.plainEvent at ht
  injection ht with ht
  subst ht
  split
  · exact inv.taken m h
  · exact hf _ (inv.taken m h)

end StoreInvariant

end Sys2Proof.Machine
end

section
/-! PROOFS. Every command keeps an invariant of the stores: host memory stays canonical, and the seven kinds of queue and
list stay within their sizes. -/

namespace Sys2Proof.Machine

open Sys2Proof

namespace StoreInvariant

variable {Q : Stores → Prop} (inv : StoreInvariant Q)
include inv

/-! ## The stations (04) -/

omit inv in
theorem wakeNotice (st : StationId) {s : State} (h : Holds Q s) : Holds Q (wakeNotice st s) := by
  unfold Machine.wakeNotice
  split
  · exact stationWakes st h
  all_goals exact h

omit inv in
theorem modExposure (st : StationId) (number : Nat) (f : Exposure → Exposure) {s : State} (h : Holds Q s) :
    Holds Q (modExposure st number f s) := by
  unfold Machine.modExposure
  split <;> exact h

theorem reportTile (st : StationId) (number : Nat) (rep : TileReport) {s : State} (h : Holds Q s) :
    Holds Q (reportTile st number rep s) := by
  unfold Machine.reportTile
  split
  · exact h
  · split
    · exact inv.drain _ (modExposure st number _ h)
    · exact h

omit inv in
theorem abortRun (st : StationId) {s : State} (h : Holds Q s) : Holds Q (abortRun st s) := by
  unfold Machine.abortRun
  split
  · exact h
  · next r _ => by_cases hflash : r.wait = .flash <;> simp only [hflash] <;> exact h

theorem abortPassage (pid : PassageId) {s : State} (h : Holds Q s) : Holds Q (abortPassage pid s) := by
  refine foldl (fun s st h => ?_) _ h
  split
  · exact h
  · split
    · exact inv.drain _ (abortRun st h)
    · exact h

theorem enterOffline (st : StationId) {s : State} (h : Holds Q s) : Holds Q (enterOffline st s) := by
  unfold Machine.enterOffline
  dsimp only
  have haborted : Holds Q (Machine.abortRun st
      (modStation st (fun x => { x with state := .offline, restTimer := none, wakeTimer := none }) s)) := abortRun st h
  exact stationRests st (inv.missAll .offline _ (inv.drain _ haborted))

theorem cameraSilent (st : StationId) {s : State} (h : Holds Q s) : Holds Q (cameraSilent st s) :=
  inv.enterOffline st (inv.raise _ h)

theorem takeReadyAnswer (st : StationId) {s : State} (h : Holds Q s) : Holds Q (takeReadyAnswer st s) := by
  unfold Machine.takeReadyAnswer
  split
  · exact inv.drain _ h
  · exact h

theorem exposureStepDone (st : StationId) (e : OpenExposure) {s : State} (h : Holds Q s) :
    Holds Q (exposureStepDone st e s) := by
  unfold Machine.exposureStepDone
  split
  · exact h
  · split
    · exact inv.drain _ (stepDone _ _ h)
    · exact h

theorem endExposure (st : StationId) {s : State} (h : Holds Q s) : Holds Q (endExposure st s) := by
  unfold Machine.endExposure
  split
  · exact arbitrationPass h
  · unfold endInPlace
    split
    · exact h
    · next e _ =>
      split
      · have hpass : Holds Q (Machine.arbitrationPass (setOpenExposure st none s)) := arbitrationPass h
        exact inv.exposureStepDone st e hpass
      · exact h

theorem awaitTimedOut (st : StationId) (r : Run) (senders : List StationId) {s : State} (h : Holds Q s) :
    Holds Q (awaitTimedOut st r senders s) := by
  unfold Machine.awaitTimedOut
  dsimp only
  refine inv.drain _ (stepDone _ _ ?_)
  exact inv.raise _ h

/-! ## The planner (03) -/

omit inv in
/-- A request placed in the order of the schedule makes it longer by one. -/
theorem length_placeInOrder (r : Request) (l : List Request) : (placeInOrder r l).length = l.length + 1 := by
  induction l with
  | nil => rfl
  | cons q rest ih =>
    unfold placeInOrder
    split <;> simp [ih]

omit inv in
theorem length_foldl_placeInOrder (rs l : List Request) :
    (rs.foldl (fun l r => placeInOrder r l) l).length = l.length + rs.length := by
  induction rs generalizing l with
  | nil => rfl
  | cons r rs ih =>
    rw [List.foldl_cons, ih, length_placeInOrder, List.length_cons]
    omega

theorem placeRequest (r : Request) {s : State} (hroom : s.schedule.length < maxRequests) (h : Holds Q s) :
    Holds Q (placeRequest r s) := by
  have hsize : maxRequests = 48 := rfl
  refine inv.setSchedule (.of_le_size ?_) h
  rw [length_placeInOrder]
  omega

theorem planRequest (r : Request) (q : State × List Request) (h : Holds Q q.1) : Holds Q (planRequest r q).1 := by
  unfold Machine.planRequest
  dsimp only
  split
  · exact inv.declareMiss _ _ _ h
  · split
    · exact inv.declareMiss _ _ _ h
    · split
      · exact inv.declareMiss _ _ _ (inv.raise _ h)
      · exact inv.placeRequest r (by omega) h

theorem planSighting (k : ContextId) (number : Nat) {s : State} (h : Holds Q s) : Holds Q (planSighting k number s) := by
  unfold Machine.planSighting
  split
  · exact h
  · split
    · exact h
    · dsimp only
      have hplanned : ∀ (rs : List Request) (q : State × List Request), Holds Q q.1 →
          Holds Q (rs.foldl (fun q r => Machine.planRequest r q) q).1 := by
        intro rs
        induction rs with
        | nil => exact fun _ h => h
        | cons r rs ih => exact fun q h => ih _ (inv.planRequest r q h)
      exact inv.drain _ (hplanned _ (s, []) h)

theorem replanAll (p : Passage) (speed : Nat) {s : State} (h : Holds Q s) : Holds Q (replanAll p speed s) := by
  unfold Machine.replanAll
  dsimp only
  have hplaced : ∀ t : State, Holds Q t → Holds Q (Machine.setSchedule
      ((t.schedule.filter fun r : Request => r.pid == p.id).foldl (fun l r => placeInOrder r l)
        (t.schedule.filter fun r : Request => !(r.pid == p.id))) { t with dueTimer := s.dueTimer }) := by
    intro t ht
    refine inv.setSchedule (s := { t with dueTimer := s.dueTimer }) (.of_le_length ?_) ht
    rw [length_foldl_placeInOrder, Nat.add_comm]
    exact (List.length_eq_length_filter_add fun r : Request => r.pid == p.id).ge
  have hmap : Holds Q { s with schedule := s.schedule.map fun r => if r.pid == p.id then r.replan p speed s else r } :=
    inv.setSchedule (s := s) (.of_le_length (List.length_map _).le) h
  exact inv.drain _ (hplaced _ (inv.missAll .late _ hmap))

theorem revise (k : ContextId) (speed : Nat) {s : State} (h : Holds Q s) : Holds Q (revise k speed s) := by
  unfold Machine.revise
  split
  · exact h
  · split
    · exact inv.replanAll _ _ h
    · exact h

theorem removal (pid : PassageId) (reason : MissReason) {s : State} (h : Holds Q s) : Holds Q (removal pid reason s) :=
  inv.drain _ (inv.missAll _ _ h)

theorem dueExpiry {s : State} (h : Holds Q s) : Holds Q (dueExpiry s) := by
  unfold Machine.dueExpiry
  dsimp only
  have hlapsed : ∀ rs : List Request, Holds Q
      (rs.foldl (fun s r => Machine.missAll (lapseReason r.station s) [r] s) { s with dueTimer := none }) :=
    fun rs => foldl (fun s r h => inv.missAll _ [r] h) rs h
  exact inv.drain _ (hlapsed _)

theorem placeTest (r : Request) {s : State} (h : Holds Q s) : Holds Q (placeTest r s) := by
  unfold Machine.placeTest
  split
  · exact inv.declareMiss _ _ _ (inv.raise _ h)
  · next hroom =>
    have hplaced := inv.placeRequest r (Nat.not_le.1 hroom) h
    dsimp only
    split
    · exact inv.drain _ (wakeNotice _ hplaced)
    · exact inv.drain _ hplaced

/-! ## Passages (02) -/

omit inv in
theorem wakeTrack (t : TrackId) {s : State} (h : Holds Q s) : Holds Q (wakeTrack t s) := by
  refine foldl (fun s st h => ?_) _ h
  split
  · exact h
  · split
    · exact wakeNotice st h
    · exact h

omit inv in
theorem openPassage_eq (k : ContextId) (t : TrackId) (d : Direction) (time : Time) (s : State) :
    openPassage k t d time s =
      (Machine.wakeTrack t { setPassage k (some (openedPassage (unusedId 9 s.nextPassageId s) t d time s)) s with
        nextPassageId := nextId (unusedId 9 s.nextPassageId s) }, unusedId 9 s.nextPassageId s) := by
  rw [openPassage]

omit inv in
theorem openPassage (k : ContextId) (t : TrackId) (d : Direction) (time : Time) {s : State} (h : Holds Q s) :
    Holds Q (openPassage k t d time s).1 := by
  have hopened : ∀ id : PassageId, Holds Q (Machine.wakeTrack t
      { setPassage k (some (openedPassage id t d time s)) s with nextPassageId := nextId id }) :=
    fun id => wakeTrack t h
  rw [openPassage_eq]
  dsimp only
  exact hopened _

omit inv in
theorem pulseNotice (id : PassageId) (w : Sensor) (time : Time) {s : State} (h : Holds Q s) :
    Holds Q (pulseNotice id w time s) := by
  unfold Machine.pulseNotice
  split <;> exact h

omit inv in
theorem unpairedNotice (id : PassageId) {s : State} (h : Holds Q s) : Holds Q (unpairedNotice id s) := by
  unfold Machine.unpairedNotice
  split <;> exact h

omit inv in
theorem implausibleNotice (id : PassageId) {s : State} (h : Holds Q s) : Holds Q (implausibleNotice id s) := by
  unfold Machine.implausibleNotice
  split <;> exact h

theorem measurement (id : PassageId) (speed : Nat) {s : State} (h : Holds Q s) : Holds Q (measurement id speed s) := by
  unfold Machine.measurement
  split
  · exact h
  · dsimp only
    refine foldl (fun _ n h => inv.planSighting _ n h) _ (inv.revise _ _ ?_)
    exact h

theorem sightingOverflow (k : ContextId) (p : Passage) {s : State} (h : Holds Q s) :
    Holds Q (sightingOverflow k p s) := inv.raise _ h

theorem judgeObject (k : ContextId) (p : Passage) (speed : Nat) (enter leave : Time) (top : Nat) {s : State}
    (h : Holds Q s) : Holds Q (judgeObject k p speed enter leave top s) := by
  unfold Machine.judgeObject
  split
  · split
    · exact inv.planSighting _ _ h
    · exact inv.sightingOverflow _ _ h
  · exact h

theorem objectReport (t : TrackId) (enter leave : Time) (top : Nat) {s : State} (h : Holds Q s) :
    Holds Q (objectReport t enter leave top s) := by
  unfold Machine.objectReport
  split
  · exact h
  · split
    · exact h
    · split
      · exact inv.judgeObject _ _ _ _ _ _ h
      · split
        · exact h
        · exact inv.sightingOverflow _ _ h
      · exact h

theorem clearServed (t : TrackId) (id : PassageId) {s : State} (h : Holds Q s) : Holds Q (clearServed t id s) := by
  refine inv.modTrack t ?_ h
  split
  · exact .refl _
  · split
    · exact .empty rfl rfl
    · exact .refl _

theorem closeWith (p : Passage) (reason : CloseReason) {s : State} (h : Holds Q s) : Holds Q (closeWith p reason s) := by
  refine inv.completeIfDone p.id ?_
  cases reason with
  | cleared => exact h
  | stalled => exact inv.removal _ _ (inv.raise _ h)
  | abandoned => exact inv.abortPassage _ (inv.removal _ _ h)
  | trackClosed => exact inv.abortPassage _ (inv.removal _ _ h)

theorem enterFinishing (k : ContextId) (p : Passage) (reason : CloseReason) {s : State} (h : Holds Q s) :
    Holds Q (enterFinishing k p reason s) := by
  refine inv.closeWith p reason (inv.clearServed p.track p.id ?_)
  exact h

theorem replaceReason (k : ContextId) (p : Passage) (reason : CloseReason) {s : State} (h : Holds Q s) :
    Holds Q (replaceReason k p reason s) := by
  refine inv.closeWith p reason ?_
  exact h

theorem endPassage {k : ContextId} {p : Passage} {reason : CloseReason} {f : State → State}
    (hf : endPassage k p reason = some f) {s : State} (h : Holds Q s) : Holds Q (f s) := by
  unfold Machine.endPassage at hf
  split at hf
  · cases hf; exact inv.enterFinishing k p reason h
  · split at hf <;> cases hf <;> exact inv.replaceReason k p reason h

theorem endTrackPassages (t : TrackId) {s : State} (h : Holds Q s) : Holds Q (endTrackPassages t s) := by
  refine foldl (fun s k h => ?_) _ h
  unfold endPassageAt
  split
  · exact h
  · split
    · split
      · exact h
      · exact inv.endPassage ‹_› h
    · exact h

theorem tailExpiry (k : ContextId) {s : State} (h : Holds Q s) : Holds Q (tailExpiry k s) := by
  unfold Machine.tailExpiry
  split
  · exact h
  · split
    · exact h
    · split
      · exact inv.enterFinishing _ _ _ h
      · exact h

/-! ## Track inputs (01) -/

theorem setQueue (t : TrackId) (p : Pair) {l : List Time} {s : State} (hl : Fits 4 (s.tracks[t].queue p) l)
    (h : Holds Q s) : Holds Q (setQueue t p l s) := by
  refine inv.modTrack t ?_ h
  cases p with
  | u => exact ⟨hl, .refl _ _⟩
  | d => exact ⟨.refl _ _, hl⟩

theorem firstPulse (t : TrackId) (p : Pair) (time : Time) {s : State} (h : Holds Q s) :
    Holds Q (firstPulse t p time s) := by
  unfold Machine.firstPulse
  dsimp only
  split
  · next hroom =>
    refine inv.setQueue t p (.of_le_size ?_) h
    simp only [List.length_append, List.length_singleton]
    omega
  · exact inv.raise _ h

theorem unpairedPulse (t : TrackId) {s : State} (h : Holds Q s) : Holds Q (unpairedPulse t s) := by
  unfold Machine.unpairedPulse
  split
  · exact inv.raise _ h
  · exact unpairedNotice _ (inv.raise _ h)

theorem testInterval (t : TrackId) (p : Pair) (id : PassageId) (interval : Nat) {s : State} (h : Holds Q s) :
    Holds Q (testInterval t p id interval s) := by
  unfold Machine.testInterval
  split
  · exact implausibleNotice _ (inv.raise _ h)
  · exact inv.measurement _ _ h

theorem secondPulse (t : TrackId) (p : Pair) (id : PassageId) (time : Time) {s : State} (h : Holds Q s) :
    Holds Q (secondPulse t p id time s) := by
  unfold Machine.secondPulse
  split
  · exact inv.unpairedPulse t h
  · next hq => exact inv.testInterval _ _ _ _ (inv.setQueue t p (.tail hq) h)

theorem startIgnore (t : TrackId) {s : State} (h : Holds Q s) : Holds Q (startIgnore t s) :=
  inv.modTrack_of_queues t rfl rfl h

theorem askPassage (t : TrackId) (d : Direction) (time : Time) {s : State} (h : Holds Q s) :
    Holds Q (askPassage t d time s) := by
  unfold Machine.askPassage
  split
  · exact inv.raise _ (inv.startIgnore t h)
  · next k _ =>
    have hopened := openPassage k t d time h
    generalize Machine.openPassage k t d time s = q at hopened ⊢
    exact inv.firstPulse _ _ _ (inv.modTrack_of_queues t rfl rfl hopened)

theorem unservedPulse (t : TrackId) (w : Sensor) (time : Time) {s : State} (h : Holds Q s) :
    Holds Q (unservedPulse t w time s) := by
  cases w with
  | uOuter => exact inv.askPassage t .up time h
  | dOuter => exact inv.askPassage t .down time h
  | uInner => exact inv.raise _ h
  | dInner => exact inv.raise _ h

theorem servedPulse (t : TrackId) (w : Sensor) (v : Served) (time : Time) {s : State} (h : Holds Q s) :
    Holds Q (servedPulse t w v time s) := by
  have hnotice := pulseNotice v.id w time h
  unfold Machine.servedPulse
  dsimp only
  split
  · exact inv.firstPulse _ _ _ hnotice
  · exact inv.secondPulse _ _ _ _ hnotice

theorem acceptPulse (t : TrackId) (w : Sensor) (time : Time) {s : State} (h : Holds Q s) :
    Holds Q (acceptPulse t w time s) := by
  unfold Machine.acceptPulse
  split
  · exact h
  · exact h
  · exact inv.startIgnore t h
  · split
    · exact inv.unservedPulse _ _ _ h
    · exact inv.servedPulse _ _ _ _ h
  · split
    · exact h
    · exact inv.servedPulse _ _ _ _ h

omit inv in
/-- The wheel filters are no axle queues. -/
theorem trackFits_modFilter (u : TrackUnit) (f : WheelFilter → WheelFilter) (w : Sensor) :
    TrackFits u (u.modFilter f w) := by
  cases w <;> exact .refl _

theorem modFilter (t : TrackId) (w : Sensor) (f : WheelFilter → WheelFilter) {s : State} (h : Holds Q s) :
    Holds Q (modFilter t w f s) :=
  inv.modTrack t (trackFits_modFilter _ _ _) h

theorem wheelEdge (t : TrackId) (w : Sensor) (level : Bool) (edge : Option Time → WheelFilter → WheelFilter) {s : State}
    (h : Holds Q s) : Holds Q (wheelEdge t w level edge s) := by
  refine inv.modTrack t ?_ h
  dsimp only
  split
  · cases w <;> exact .refl _
  · exact trackFits_modFilter _ _ _

theorem bounceExpiry (t : TrackId) (w : Sensor) {s : State} (h : Holds Q s) : Holds Q (bounceExpiry t w s) := by
  unfold Machine.bounceExpiry
  dsimp only
  split
  · split
    · exact inv.acceptPulse _ _ _ (inv.modFilter t w _ h)
    · exact inv.modFilter t w _ h
    · exact h
    · exact h
  · exact h

theorem enterWatching (t : TrackId) {s : State} (h : Holds Q s) : Holds Q (enterWatching t s) :=
  inv.modTrack t (.empty rfl rfl) h

theorem axleExpiry (t : TrackId) (p : Pair) {s : State} (h : Holds Q s) : Holds Q (axleExpiry t p s) := by
  unfold Machine.axleExpiry
  split
  · exact h
  · next hq =>
    split
    · exact inv.unpairedPulse t (inv.setQueue t p (.tail hq) h)
    · exact h

theorem detectScan (t : TrackId) (lit : List Nat) {s : State} (h : Holds Q s) : Holds Q (detectScan t lit s) := by
  unfold Machine.detectScan
  dsimp only
  split
  · exact inv.modCurtain t _ h
  · split
    · split
      · exact inv.objectReport _ _ _ _ (inv.modCurtain t _ h)
      · exact inv.modCurtain t _ h
    · exact inv.modCurtain t _ h

theorem takeScan (t : TrackId) (beams : BitVec 24) {s : State} (h : Holds Q s) : Holds Q (takeScan t beams s) := by
  have htimed : Holds Q (restartSilence t s) := inv.modCurtain t _ h
  rw [takeScan_eq]
  split
  · exact inv.modCurtain t _ htimed
  · exact inv.detectScan t _ htimed

theorem curtainBlind (t : TrackId) {s : State} (h : Holds Q s) : Holds Q (curtainBlind t s) :=
  inv.raise _ (inv.modCurtain t _ h)

theorem curtainSilence (t : TrackId) {s : State} (h : Holds Q s) : Holds Q (curtainSilence t s) := by
  have hstopped : Holds Q (Machine.modCurtain t (fun c => { c with silenceTimer := none }) s) := inv.modCurtain t _ h
  unfold Machine.curtainSilence
  dsimp only
  split
  · exact inv.modCurtain t _ hstopped
  · exact inv.curtainBlind t hstopped

/-! ## The tile mover (07) -/

theorem beginRead (phase : Phase) (a : Addr) (length : Nat) {s : State} (h : Holds Q s) :
    Holds Q (beginRead phase a length s) := by
  unfold Machine.beginRead
  split
  · exact h
  · have hphase : Holds Q (Machine.modMover (fun m => { m with phase := phase }) s) := inv.modMover_of_lists rfl rfl h
    exact hphase

theorem tryTake {s : State} (h : Holds Q s) : Holds Q (tryTake s) := by
  unfold Machine.tryTake
  split
  · split
    · exact inv.beginRead _ _ _ h
    · exact h
  · exact h
  · exact h

theorem rereadDry {s : State} (h : Holds Q s) : Holds Q (rereadDry s) := by
  unfold Machine.rereadDry
  split
  · exact inv.beginRead _ _ _ h
  · exact inv.beginRead _ _ _ h
  · exact h

theorem endRead {s : State} (h : Holds Q s) : Holds Q (endRead s) := by
  have hended : Holds Q (Machine.modMover (fun m => { m with lookPending := false }) s) :=
    inv.modMover_of_lists rfl rfl h
  unfold Machine.endRead
  dsimp only
  split
  · exact inv.rereadDry hended
  · exact hended

theorem enterDry (a : Addr) {s : State} (h : Holds Q s) : Holds Q (enterDry a s) := by
  unfold Machine.enterDry
  split
  · exact h
  · have hdry : Holds Q (Machine.modMover (fun m => { m with condition := .dry, hold := none }) s) :=
      inv.modMover_of_lists rfl rfl h
    exact inv.raise _ (withIrq hdry)

theorem hold (reason : HoldReason) (code : CauseCode) (tile : Option Tile) (a : Addr) {s : State} (h : Holds Q s) :
    Holds Q (hold reason code tile a s) :=
  inv.raise _ (inv.modMover_of_lists rfl rfl h)

theorem makeCurrent (a : Addr) (card : List Byte) {s : State} (h : Holds Q s) : Holds Q (makeCurrent a card s) := by
  refine inv.modMover ?_ h
  split
  · exact ⟨.refl _ _, .refl _ _⟩
  · next hq => exact ⟨.tail hq, .refl _ _⟩

theorem beginMarking (a : Addr) (card : List Byte) {s : State} (h : Holds Q s) : Holds Q (beginMarking a card s) :=
  inv.modMover ⟨.refl _ _, .filter _ _ _⟩ h

theorem judgeCard (a : Addr) (read : Option (List Byte)) {s : State} (h : Holds Q s) : Holds Q (judgeCard a read s) := by
  unfold Machine.judgeCard
  split
  · exact inv.hold _ _ _ _ h
  · split
    · exact inv.enterDry a (inv.modMover_of_lists rfl rfl h)
    · split
      · exact inv.hold _ _ _ _ h
      · split
        · exact inv.hold _ _ _ _ h
        · split
          · exact inv.beginMarking _ _ h
          · exact inv.makeCurrent _ _ h

theorem takeCompletion (read : Option (List Byte)) {s : State} (h : Holds Q s) : Holds Q (takeCompletion read s) := by
  unfold Machine.takeCompletion
  split
  · exact inv.judgeCard _ _ h
  · exact h
  · exact h

theorem completeMoverRead (phase : Phase) {f : State → State} (hf : ∀ s, Holds Q s → Holds Q (f s)) {s : State}
    (h : Holds Q s) : Holds Q (completeMoverRead phase f s) := by
  unfold Machine.completeMoverRead
  split
  · exact inv.modMover_of_lists rfl rfl h
  · split
    · exact inv.endRead (hf s h)
    · exact h

theorem toPendingHead (head : Addr) {s : State} (h : Holds Q s) : Holds Q (toPendingHead head s) :=
  inv.tryTake (inv.modMover_of_lists rfl rfl h)

theorem afterMarking (c : MarkedCard) {s : State} (h : Holds Q s) : Holds Q (afterMarking c s) := by
  unfold Machine.afterMarking
  split
  · exact inv.toPendingHead _ h
  · split
    · exact inv.enterDry _ (inv.modMover_of_lists rfl rfl h)
    · exact inv.tryTake (inv.modMover_of_lists rfl rfl h)

theorem afterWrite (c : CurrentCard) {s : State} (h : Holds Q s) : Holds Q (afterWrite c s) := by
  unfold Machine.afterWrite
  split
  · exact inv.toPendingHead _ h
  · exact inv.beginRead _ _ _ (inv.modMover_of_lists rfl rfl h)

theorem finishWrite (c : CurrentCard) {s : State} (h : Holds Q s) : Holds Q (finishWrite c s) := by
  have hreported := inv.reportTile c.tile.station c.tile.number (cardReport .tiled c)
    (inv.modMover_of_lists (f := fun m => { m with phase := .idle, current := none }) rfl rfl
      (inv.landRuns (writingRuns c) (runsLength (writingRuns c)) h))
  unfold Machine.finishWrite
  dsimp only
  split
  · exact hreported
  · exact inv.afterWrite c hreported

theorem attemptRuns (runs : List (Addr × List Byte)) {s : State} (h : Holds Q s) : Holds Q (attemptRuns runs s) :=
  foldl (fun _ r h => inv.busWrite r.1 r.2 h) _ h

theorem holdFailedCard (tile : Option Tile) (a : Addr) {s : State} (h : Holds Q s) :
    Holds Q (holdFailedCard tile a s) := by
  unfold Machine.holdFailedCard
  split
  · exact h
  · exact inv.raise _ (inv.modMover_of_lists rfl rfl h)

theorem endWrites {s : State} (h : Holds Q s) : Holds Q (endWrites s) := inv.modMover_of_lists rfl rfl h

/-- The writes that landed, then the attempt on the failed card, where the failing write was not the last. -/
theorem failedWrites (runs attempt : List (Addr × List Byte)) (landed : Nat) {s : State} (h : Holds Q s) :
    Holds Q (if failedAtOwner runs landed then Machine.landRuns runs (landedBefore runs landed) s
      else Machine.attemptRuns attempt (Machine.landRuns runs (landedBefore runs landed) s)) := by
  have hlanded := inv.landRuns runs (landedBefore runs landed) h
  split
  · exact hlanded
  · exact inv.attemptRuns _ hlanded

theorem failWriting (c : CurrentCard) (landed : Nat) {s : State} (h : Holds Q s) : Holds Q (failWriting c landed s) :=
  inv.holdFailedCard _ _ (inv.reportTile _ _ _ (inv.endWrites (inv.failedWrites _ _ _ h)))

theorem failMarking (c : MarkedCard) (landed : Nat) {s : State} (h : Holds Q s) : Holds Q (failMarking c landed s) :=
  inv.holdFailedCard _ _ (inv.endWrites (inv.failedWrites _ _ _ h))

theorem followCompletion (next : Option Addr) {s : State} (h : Holds Q s) : Holds Q (followCompletion next s) := by
  unfold Machine.followCompletion
  split
  · unfold followed
    split
    · exact inv.hold _ _ _ _ h
    · have hidle : Holds Q (Machine.modMover (fun m => { m with phase := .idle }) s) := inv.modMover_of_lists rfl rfl h
      dsimp only
      split
      · exact inv.enterDry _ hidle
      · exact inv.tryTake (inv.modMover_of_lists rfl rfl hidle)
  · exact h
  · exact h

theorem probed (owner : Option Byte) {s : State} (h : Holds Q s) : Holds Q (probed owner s) := by
  have hidle : Holds Q (Machine.modMover (fun m => { m with phase := .idle }) s) := inv.modMover_of_lists rfl rfl h
  unfold Machine.probed
  dsimp only
  split
  · exact inv.tryTake (inv.modMover_of_lists rfl rfl hidle)
  · exact hidle

theorem releaseHold {s : State} (h : Holds Q s) : Holds Q (releaseHold s) := by
  have hok : Holds Q (Machine.modMover (fun m => { m with condition := .ok, hold := none }) s) :=
    inv.modMover_of_lists rfl rfl h
  unfold Machine.releaseHold
  dsimp only
  split
  · exact inv.tryTake hok
  · exact inv.beginRead _ _ _ hok
  · exact hok

theorem lookMover {s : State} (h : Holds Q s) : Holds Q (lookMover s) := by
  have hpending : Holds Q (Machine.modMover (fun m => { m with lookPending := true }) s) :=
    inv.modMover_of_lists rfl rfl h
  unfold Machine.lookMover
  split
  · exact hpending
  · exact hpending
  · exact hpending
  · exact h
  · exact h
  · split
    · exact h
    · exact inv.rereadDry h
    · exact inv.releaseHold h

omit inv in
/-- A new head leaves the ready tile queue alone (R147). -/
theorem headTo_queue (head : Addr) (m : TileMover) : (headTo head m).queue = m.queue := by
  unfold headTo
  split <;> rfl

theorem giveHead (head : Addr) {s : State} (h : Holds Q s) : Holds Q (giveHead head s) :=
  inv.tryTake (inv.modMover ⟨.of_le_length (by rw [headTo_queue]), .nil _ _⟩ h)

omit inv in
/-- An address is added to the withdraw list only below 16 (R148). -/
theorem moverFits_withdrawAll (addresses : List Addr) (m : TileMover) : MoverFits m (withdrawAll addresses m).1 := by
  induction addresses generalizing m with
  | nil => exact ⟨.refl _ _, .refl _ _⟩
  | cons a rest ih =>
    unfold withdrawAll
    dsimp only
    split
    · next hadded =>
      have hroom : m.withdrawn.length < 16 := by
        unfold entryResult at hadded
        split at hadded
        · cases hadded
        · split at hadded
          · cases hadded
          · split at hadded
            · cases hadded
            · next hlt => exact Nat.not_le.1 hlt
      obtain ⟨hqueue, hlist⟩ := ih { m with withdrawn := m.withdrawn ++ [a] }
      refine ⟨hqueue, .of_le_size (hlist.trans ?_)⟩
      simp only [List.length_append, List.length_singleton]
      omega
    · exact ih m

/-! ## The camera ports (06) -/

theorem placeTile (t : Tile) {s : State} (h : Holds Q s) : Holds Q (placeTile t s) := by
  unfold Machine.placeTile
  split
  · next hroom =>
    have hsize : maxTiles = 8 := rfl
    refine inv.tryTake (inv.modMover ⟨.of_le_size ?_, .refl _ _⟩ h)
    simp only [List.length_append, List.length_singleton]
    omega
  · exact inv.raise _ (inv.reportTile _ _ _ h)

theorem takeFrame (st : StationId) (f : Frame) (a : Awaited) {s : State} (h : Holds Q s) :
    Holds Q (takeFrame st f a s) := by
  have hreceived : Holds Q (frameReceived st a.number (dropAwaited st a.number s)) := modExposure st a.number _ h
  unfold Machine.takeFrame
  dsimp only
  split
  · split
    · exact inv.placeTile _ hreceived
    · exact hreceived
  · exact inv.raise _ (inv.reportTile _ _ _ hreceived)

theorem frameArrives (st : StationId) (f : Frame) {s : State} (h : Holds Q s) : Holds Q (frameArrives st f s) := by
  unfold Machine.frameArrives
  split
  · dsimp only
    split
    · exact inv.raise _ h
    · exact inv.takeFrame _ _ _ h
  · exact h

theorem frameTimeout (st : StationId) (number : Nat) {s : State} (h : Holds Q s) :
    Holds Q (frameTimeout st number s) := by
  unfold Machine.frameTimeout
  dsimp only
  split
  · exact inv.reportTile _ _ _ (inv.raise _ h)
  · exact inv.cameraSilent _ (inv.raise _ h)

end StoreInvariant

end Sys2Proof.Machine
end

section
/-! PROOFS. Every command keeps an invariant of the stores: the orders, the registers, the resets and the step; from it
host memory stays canonical, and the seven kinds of queue and list stay within their sizes. -/

namespace Sys2Proof.Machine

open Sys2Proof

namespace StoreInvariant

variable {Q : Stores → Prop} (inv : StoreInvariant Q)
include inv

/-! ## Orders that are judged at once (09) -/

/-- An order is parked only where fewer than 4 are (R178). -/
theorem park (slot : SlotId) (w : ParkedFor) {s : State} (hroom : parkFull s ≠ true) (h : Holds Q s) :
    Holds Q (park slot w s) := by
  rw [ne_eq, parkFull_iff] at hroom
  refine inv.modEngine (.of_le_size ?_) h
  simp only [List.length_append, List.length_singleton]
  omega

theorem openOrder (slot : SlotId) (track : Byte) {s : State} (h : Holds Q s) : Holds Q (openOrder slot track s) := by
  unfold Machine.openOrder
  split
  · exact inv.writeFinish _ _ h
  · next t _ =>
    split
    · exact inv.writeFinish _ _ h
    · split
      · exact inv.writeFinish _ _ h
      · refine inv.writeFinish _ _ ?_
        unfold beginOpen
        split
        · exact inv.enterWatching t h
        · exact inv.modTrack_of_queues t rfl rfl h

theorem closeNow (t : TrackId) {s : State} (h : Holds Q s) : Holds Q (closeNow t s) :=
  inv.endTrackPassages t (inv.enterClosed t .now h)

theorem enterClosing (t : TrackId) {s : State} (h : Holds Q s) : Holds Q (enterClosing t s) :=
  inv.modTrack_of_queues t rfl rfl h

theorem closeAfterOrder (slot : SlotId) (t : TrackId) {s : State} (h : Holds Q s) :
    Holds Q (closeAfterOrder slot t s) := by
  unfold Machine.closeAfterOrder
  split
  · exact inv.writeFinish _ _ h
  · split
    · exact inv.writeFinish _ _ (inv.enterClosed _ _ (inv.enterClosing t h))
    · split
      · exact inv.writeFinish _ _ h
      · next hroom => exact inv.park (s := Machine.enterClosing t s) _ _ hroom (inv.enterClosing t h)

theorem closeOrder (slot : SlotId) (track mode : Byte) {s : State} (h : Holds Q s) :
    Holds Q (closeOrder slot track mode s) := by
  unfold Machine.closeOrder closeNowOrder
  split
  · exact inv.writeFinish _ _ h
  · next t _ =>
    split
    · split
      · exact inv.writeFinish _ _ h
      · exact inv.writeFinish _ _ (inv.closeNow t h)
    · split
      · exact inv.closeAfterOrder _ _ h
      · exact inv.writeFinish _ _ h

theorem abandonOrder (slot : SlotId) (id : PassageId) {s : State} (h : Holds Q s) : Holds Q (abandonOrder slot id s) := by
  unfold Machine.abandonOrder
  split
  · exact inv.writeFinish _ _ h
  · split
    · exact inv.writeFinish _ _ h
    · split
      · exact inv.writeFinish _ _ h
      · split
        · exact inv.writeFinish _ _ h
        · exact inv.writeFinish _ _ (inv.endPassage ‹_› h)

theorem testShotOrder (slot : SlotId) (station program : Byte) (speed : Word) {s : State} (h : Holds Q s) :
    Holds Q (testShotOrder slot station program speed s) := by
  unfold Machine.testShotOrder
  split
  · split
    · exact inv.writeFinish _ _ h
    · split
      · exact inv.writeFinish _ _ h
      · split
        · exact inv.writeFinish _ _ h
        · split
          · exact inv.writeFinish _ _ h
          · next hroom => exact inv.placeTest _ (inv.park _ _ hroom h)
  · exact inv.writeFinish _ _ h

theorem giveChainOrder (slot : SlotId) (head : Addr) {s : State} (h : Holds Q s) :
    Holds Q (giveChainOrder slot head s) := by
  unfold Machine.giveChainOrder
  split
  · exact inv.writeFinish _ _ h
  · exact inv.writeFinish _ _ (inv.giveHead head h)

theorem drainOrder (slot : SlotId) {s : State} (h : Holds Q s) : Holds Q (drainOrder slot s) := by
  unfold Machine.drainOrder
  split
  · exact inv.writeFinish _ _ h
  · split
    · exact inv.writeFinish _ _ (inv.modMover_of_lists rfl rfl h)
    · exact inv.writeFinish _ _ h
    · split
      · exact inv.writeFinish _ _ h
      · next hroom => exact inv.park _ _ hroom h

theorem snapshotOrder (slot : SlotId) {s : State} (h : Holds Q s) : Holds Q (snapshotOrder slot s) :=
  inv.writeFinish _ _ (inv.handRecord _ h)

omit inv in
theorem restStation (st : StationId) {s : State} (h : Holds Q s) : Holds Q (restStation st s).1 := by
  have hrested : Holds Q (goToRest st s) := stationRests st h
  unfold Machine.restStation
  split
  · exact h
  · exact h
  · exact hrested
  · exact hrested
  · exact h
  · exact h

omit inv in
theorem wakeStation (st : StationId) {s : State} (h : Holds Q s) : Holds Q (wakeStation st s).1 := by
  have hwoken := wakeNotice st h
  unfold Machine.wakeStation
  split
  · exact h
  · exact hwoken
  · exact h
  · exact hwoken
  · exact h
  · exact h

omit inv in
theorem restEach {act : StationId → State → State × RestResult} (hact : ∀ st s, Holds Q s → Holds Q (act st s).1)
    (mask : Byte) (sts : List StationId) {s : State} (h : Holds Q s) : Holds Q (restEach act mask sts s).1 := by
  induction sts generalizing s with
  | nil => exact h
  | cons st rest ih =>
    unfold Machine.restEach
    split
    · exact ih (hact st s h)
    · exact ih h

theorem setRestOrder (slot : SlotId) (mask action : Byte) {s : State} (h : Holds Q s) :
    Holds Q (setRestOrder slot mask action s) := by
  unfold Machine.setRestOrder
  split
  · exact inv.writeFinish _ _ h
  · split
    · exact inv.writeFinish _ _ (restEach (fun st _ h => restStation st h) mask allStations h)
    · split
      · exact inv.writeFinish _ _ (restEach (fun st _ h => wakeStation st h) mask allStations h)
      · exact inv.writeFinish _ _ h

theorem beginLongRead (slot : SlotId) (r : LongRead) (a : Addr) (length : Nat) {s : State} (h : Holds Q s) :
    Holds Q (beginLongRead slot r a length s) := by
  have hexecuting : Holds Q (Machine.modEngine (fun e => { e with executing := some (slot, r) }) s) :=
    inv.modEngine (.refl _ _) h
  exact hexecuting

theorem loadProgramsOrder (slot : SlotId) (mask : BitVec 16) (a : Addr) {s : State} (h : Holds Q s) :
    Holds Q (loadProgramsOrder slot mask a s) := by
  unfold Machine.loadProgramsOrder
  split
  · exact inv.writeFinish _ _ h
  · exact inv.beginLongRead _ _ _ _ h

theorem withdrawOrder (slot : SlotId) (count : Byte) (a : Addr) {s : State} (h : Holds Q s) :
    Holds Q (withdrawOrder slot count a s) := by
  unfold Machine.withdrawOrder
  split
  · exact inv.beginLongRead _ _ _ _ h
  · exact inv.writeFinish _ _ h

theorem runOrder (slot : SlotId) (o : Order) {s : State} (h : Holds Q s) : Holds Q (runOrder slot o s) := by
  unfold Machine.runOrder
  split
  · cases o with
    | badKind => exact inv.writeFinish _ _ h
    | loadPlan a => exact inv.beginLongRead _ _ _ _ h
    | loadPrograms mask a => exact inv.loadProgramsOrder _ _ _ h
    | openTrack t => exact inv.openOrder _ _ h
    | closeTrack t mode => exact inv.closeOrder _ _ _ h
    | giveChain head => exact inv.giveChainOrder _ _ h
    | withdrawCards count a => exact inv.withdrawOrder _ _ _ h
    | drain => exact inv.drainOrder _ h
    | abandonPassage id => exact inv.abandonOrder _ _ h
    | testShot st p v => exact inv.testShotOrder _ _ _ _ h
    | snapshot => exact inv.snapshotOrder _ h
    | setRest mask action => exact inv.setRestOrder _ _ _ h
  · exact inv.writeFinish _ _ h

/-! ## The take of a slot and the scan (09) -/

theorem takeOrder (slot : SlotId) (o : Order) {s : State} (h : Holds Q s) : Holds Q (takeOrder slot o s) := by
  have htaken := inv.busWrite (slotAddr slot s) [stateTaken] h
  unfold Machine.takeOrder
  dsimp only
  split
  · exact inv.settleUnlessFailed (inv.runOrder slot o htaken)
  · exact inv.raise _ htaken

theorem visitSlot (slot : SlotId) {s : State} (h : Holds Q s) : Holds Q (visitSlot slot s) := by
  have hscan : Holds Q (Machine.modEngine (fun e => { e with scan := some slot }) s) := inv.modEngine (.refl _ _) h
  unfold Machine.visitSlot
  dsimp only
  split
  · exact hscan
  · split
    · exact inv.raise _ hscan
    · split
      · split
        · exact inv.raise _ hscan
        · exact inv.takeOrder _ _ hscan
      · exact hscan

theorem visitSlots (slots : List SlotId) {s : State} (h : Holds Q s) : Holds Q (visitSlots slots s) := by
  refine foldl (fun s slot h => ?_) _ h
  split
  · exact h
  · exact inv.visitSlot slot h

theorem endScan {s : State} (h : Holds Q s) : Holds Q (endScan s) := by
  unfold Machine.endScan
  split
  · exact h
  · exact inv.modEngine (.refl _ _) h

theorem startScan {s : State} (h : Holds Q s) : Holds Q (startScan s) :=
  inv.endScan (inv.visitSlots _ (inv.modEngine (.refl _ _) h))

theorem continueScan (slot : SlotId) {s : State} (h : Holds Q s) : Holds Q (continueScan slot s) := by
  have hvisited := inv.visitSlots (allSlots.filter fun n => slot.val < n.val) h
  unfold Machine.continueScan
  dsimp only
  split
  · exact hvisited
  · split
    · exact inv.startScan hvisited
    · exact inv.endScan hvisited

theorem lookEngine {s : State} (h : Holds Q s) : Holds Q (lookEngine s) := by
  unfold Machine.lookEngine
  split
  · exact h
  · split
    · exact inv.modEngine (.refl _ _) h
    · exact inv.startScan h

/-! ## Completions of the long reads (09) -/

theorem acceptPlan (plan : List Byte) {s : State} (h : Holds Q s) : Holds Q (acceptPlan plan s) := by
  have htracks : Holds Q (allTracks.foldl (planTrack plan) s) :=
    foldl (fun s t h => inv.modTrack t (.empty rfl rfl) h) _ h
  have hstations : ∀ t : State, Holds Q t → Holds Q (allStations.foldl (planStation plan) t) :=
    fun t ht => foldl (fun s st h => by unfold planStation; dsimp only; split <;> exact h) _ ht
  have hunits : ∀ t : State, Holds Q t → Holds Q (allUnits.foldl (planUnit plan) t) :=
    fun t ht => foldl (fun s u h => by unfold planUnit; exact h) _ ht
  have hheads : ∀ t : State, Holds Q t →
      Holds Q { t with headMin := leAt plan 4 2, headMax := leAt plan 6 2 } := fun _ h => h
  have hready : ∀ t : State, Holds Q t →
      Holds Q { t with routingLimit := leAt plan 2 1, routing := routingOf plan, device := .ready } := fun _ h => h
  unfold Machine.acceptPlan
  exact hready _ (hunits _ (hstations _ (hheads _ htracks)))

theorem finishPlan (slot : SlotId) (read : Option (List Byte)) {s : State} (h : Holds Q s) :
    Holds Q (finishPlan slot read s) := by
  unfold Machine.finishPlan
  split
  · exact inv.writeFinish _ _ h
  · split
    · exact inv.writeFinish _ _ h
    · split
      · exact inv.writeFinish _ _ h
      · split
        · exact inv.writeFinish _ _ h
        · exact inv.writeFinish _ _ (inv.acceptPlan _ h)

omit inv in
theorem loadAll (programs : List (ProgramId × Program)) {s : State} (h : Holds Q s) : Holds Q (loadAll programs s) :=
  foldl (f := fun s (p : ProgramId × Program) => { s with programs := s.programs.set p.1 (some p.2) })
    (fun _ _ h => h) programs h

theorem finishPrograms (slot : SlotId) (mask : BitVec 16) (read : Option (List Byte)) {s : State} (h : Holds Q s) :
    Holds Q (finishPrograms slot mask read s) := by
  unfold Machine.finishPrograms
  split
  · exact inv.writeFinish _ _ h
  · split
    · exact inv.writeFinish _ _ h
    · split
      · exact inv.writeFinish _ _ h
      · exact inv.writeFinish _ _ (loadAll _ h)

theorem finishWithdraw (slot : SlotId) (read : Option (List Addr)) {s : State} (h : Holds Q s) :
    Holds Q (finishWithdraw slot read s) := by
  unfold Machine.finishWithdraw
  split
  · exact inv.writeFinish _ _ h
  · next addresses =>
    split
    · exact inv.writeFinish _ _ h
    · have hlisted : Holds Q (Machine.modMover (fun m => (withdrawAll addresses m).1) s) :=
        inv.modMover (moverFits_withdrawAll addresses s.mover) h
      exact inv.writeFinish _ _ hlisted

theorem completeRead (slot : SlotId) {finish : State → State} (hf : ∀ s, Holds Q s → Holds Q (finish s)) {s : State}
    (h : Holds Q s) : Holds Q (completeRead slot finish s) :=
  inv.continueScan slot (inv.settleUnlessFailed (hf _ (inv.modEngine (.refl _ _) h)))

theorem orderCommand {m : Moment} {slot : SlotId} {o : Order} {s t : State} (h : Holds Q s)
    (ht : orderCommand m slot o s = .next t) : Holds Q t := by
  refine inv.event (fun s h => ?_) h ht
  split
  · exact h
  · exact inv.endScan (inv.takeOrder slot o (inv.modEngine (.refl _ _) h))

/-! ## The registers and the resets (09, 10) -/

theorem controlWrite {m : Moment} {enables : BitVec 5} {action : State → State} {s t : State}
    (hf : ∀ s, Holds Q s → Holds Q (action s)) (h : Holds Q s) (ht : controlWrite m enables action s = .next t) :
    Holds Q t := by
  have henabled : Holds Q (setEnables enables (Machine.taken m s)) := withIrq (inv.taken m h)
  unfold Machine.controlWrite at ht
  injection ht with ht
  subst ht
  split
  · exact henabled
  · exact inv.conclude (hf _ henabled)

theorem look {s : State} (h : Holds Q s) : Holds Q (look s) :=
  inv.lookEngine (inv.settleUnlessFailed (inv.lookWriter (inv.lookMover h)))

theorem stop {s : State} (h : Holds Q s) : Holds Q (stop s) := by
  have hclosed : ∀ ts : List TrackId,
      Holds Q (ts.foldl (fun s t => Machine.closeNow t s) { s with device := .stopping }) :=
    fun ts => foldl (fun _ t h => inv.closeNow t h) ts h
  exact inv.abortPassage 0 (inv.removal 0 .abandoned (hclosed _))

theorem writeArea (offset : Nat) (bytes : List Byte) {s : State} (h : Holds Q s) :
    Holds Q (writeArea offset bytes s).1 := by
  have hwritten := inv.busWrite (offsetAddr s.base offset) bytes h
  unfold Machine.writeArea
  dsimp only
  split
  · exact hwritten
  · exact inv.raise _ hwritten

theorem writeIdentity {s : State} (h : Holds Q s) : Holds Q (writeIdentity s) := by
  have hbytes := inv.writeArea 0 identityBytes h
  unfold Machine.writeIdentity
  dsimp only
  split
  · exact inv.writeArea _ _ hbytes
  · exact hbytes

theorem takeBase (high : Word) {s : State} (h : Holds Q s) : Holds Q (takeBase high s) := by
  have hmoved : Holds Q (Machine.modWriter (fun w => { w with rowCursor := 0, notices := [], overflow := false })
      { s with base := joinedBase high s.stagedLow }) := inv.modWriter ⟨.refl _ _, .nil _ _⟩ h
  unfold Machine.takeBase
  dsimp only
  split
  · exact hmoved
  · exact inv.writeIdentity hmoved

omit inv in
/-- A read of NOTICE takes a row number from the queue or leaves it as it is (R167). -/
theorem writerFits_popNotice (w : ReportWriter) : WriterFits w (popNotice w) := by
  unfold popNotice
  split
  · exact ⟨.refl _ _, .refl _ _⟩
  · next hq => exact ⟨.refl _ _, .tail hq⟩

theorem resetBlocks {s : State} (h : Holds Q s) : Holds Q (resetBlocks s) := by
  refine inv.fits s.stores _ ⟨rfl, .nil _ _, fun t => ?_, ⟨.nil _ _, .nil _ _⟩, ⟨.nil _ _, .nil _ _⟩, .nil _ _⟩ h
  have hreset : (Machine.resetBlocks s).tracks[t] = s.tracks[t].atReset := by simp [Machine.resetBlocks]
  show TrackFits s.tracks[t] (Machine.resetBlocks s).tracks[t]
  rw [hreset]
  exact .empty rfl rfl

omit inv in
theorem selfChecked (passed : Bool) {s : State} (h : Holds Q s) : Holds Q (selfChecked passed s) := by
  unfold Machine.selfChecked
  split
  · exact h
  · exact withIrq h

theorem hardReset (selfCheck : Bool) {s : State} (h : Holds Q s) : Holds Q (hardReset selfCheck s) :=
  selfChecked _ (inv.resetBlocks (inv.stopCardWrite false h))

theorem softReset (selfCheck : Bool) {s : State} (h : Holds Q s) : Holds Q (softReset selfCheck s) := by
  have hreset := inv.resetBlocks (inv.stopCardWrite false h)
  unfold Machine.softReset
  dsimp only
  split
  · exact selfChecked _ hreset
  · split
    · exact hreset
    · exact inv.writeIdentity hreset

/-! ## The commands and the step -/

omit inv in
theorem of_next {t u : State} (h : Holds Q t) (ht : (.next t : Host.Outcome State Fault Refusal) = .next u) :
    Holds Q u := by
  injection ht with ht
  exact ht ▸ h

theorem exec (c : Instr) {s t : State} (h : Holds Q s) (ht : exec c s = .next t) : Holds Q t := by
  cases c with
  | powerOn m selfCheck =>
    refine of_next ?_ ht
    exact inv.hardReset selfCheck (inv.taken m h)
  | linkReset m selfCheck =>
    refine of_next ?_ ht
    exact inv.hardReset selfCheck (inv.taken m h)
  | controlNone m enables code =>
    refine of_next ?_ ht
    exact withIrq (inv.taken m h)
  | controlLook m enables => exact inv.controlWrite (fun _ h => inv.look h) h ht
  | controlStart m enables =>
    unfold Machine.exec execControlStart at ht
    have henabled : Holds Q (setEnables enables (Machine.taken m s)) := withIrq (inv.taken m h)
    refine of_next ?_ ht
    split <;> exact henabled
  | controlStop m enables =>
    unfold Machine.exec execControlStop at ht
    refine inv.controlWrite (fun s h => ?_) h ht
    split
    · exact inv.stop h
    · exact h
  | controlSoftReset m enables selfCheck =>
    refine of_next ?_ ht
    exact inv.softReset selfCheck (withIrq (inv.taken m h))
  | exchangeBaseLowWrite m value =>
    unfold Machine.exec execExchangeBaseLowWrite at ht
    refine of_next ?_ ht
    split <;> exact inv.taken m h
  | exchangeBaseHighWrite m value =>
    unfold Machine.exec execExchangeBaseHighWrite at ht
    refine inv.event (fun s h => ?_) h ht
    split
    · exact inv.takeBase value h
    · exact h
  | causeWrite m value =>
    have hcleared : Holds Q { Machine.taken m s with latches := clearLatches value (Machine.taken m s).latches } :=
      inv.taken m h
    refine of_next ?_ ht
    unfold remindIrq
    split <;> exact hcleared
  | noticeRead m =>
    refine of_next ?_ ht
    exact inv.modWriter (writerFits_popNotice _) (inv.taken m h)
  | registerWriteIgnored m register value =>
    refine of_next ?_ ht
    exact inv.taken m h
  | assertingEdge m track sensor =>
    refine of_next ?_ ht
    exact inv.wheelEdge _ _ _ _ (inv.taken m h)
  | releasingEdge m track sensor =>
    refine of_next ?_ ht
    exact inv.wheelEdge _ _ _ _ (inv.taken m h)
  | bounceTimerExpiry m track sensor => exact inv.event (fun _ h => inv.bounceExpiry track sensor h) h ht
  | settleTimerExpiry m track =>
    unfold Machine.exec execSettleTimerExpiry at ht
    refine inv.plainEvent (fun s h => ?_) h ht
    split
    · exact inv.enterWatching track h
    · exact h
  | ignoreTimerExpiry m track =>
    unfold Machine.exec execIgnoreTimerExpiry at ht
    refine inv.plainEvent (fun s h => ?_) h ht
    split
    · exact inv.modTrack track (.empty rfl rfl) h
    · exact h
  | axleEntryExpiry m track pair => exact inv.event (fun _ h => inv.axleExpiry track pair h) h ht
  | scanMessage m track beams =>
    unfold Machine.exec execScanMessage at ht
    refine inv.event (fun s h => ?_) h ht
    split
    · exact inv.takeScan track beams h
    · exact h
  | stuckTimerExpiry m track =>
    unfold Machine.exec execStuckTimerExpiry at ht
    refine inv.event (fun s h => ?_) h ht
    split
    · exact inv.curtainBlind track h
    · exact h
  | curtainSilenceExpiry m track =>
    unfold Machine.exec execCurtainSilenceExpiry at ht
    refine inv.event (fun s h => ?_) h ht
    split
    · exact inv.curtainSilence track h
    · exact h
  | tailTimerExpiry m context => exact inv.event (fun _ h => inv.tailExpiry context h) h ht
  | dueTimerExpiry m =>
    unfold Machine.exec execDueTimerExpiry at ht
    refine inv.event (fun s h => ?_) h ht
    split
    · exact inv.dueExpiry h
    · exact h
  | readyAnswer m station => exact inv.event (fun _ h => inv.takeReadyAnswer station h) h ht
  | restTimerExpiry m station =>
    unfold Machine.exec execRestTimerExpiry at ht
    refine inv.plainEvent (fun s h => ?_) h ht
    split
    · have hresting : Holds Q (enterResting station s) := h
      exact stationRests station hresting
    · exact h
  | wakeLimitExpiry m station =>
    unfold Machine.exec execWakeLimitExpiry at ht
    refine inv.event (fun s h => ?_) h ht
    split
    · exact inv.cameraSilent station h
    · exact h
  | exposureEnd m station => exact inv.event (fun _ h => inv.endExposure station h) h ht
  | pauseEnd m station =>
    unfold Machine.exec execPauseEnd at ht
    refine inv.event (fun s h => ?_) h ht
    split
    · exact h
    · split
      · split
        · exact inv.drain _ (stepDone _ _ h)
        · exact h
      · exact h
  | awaitTimerExpiry m station =>
    unfold Machine.exec execAwaitTimerExpiry at ht
    refine inv.event (fun s h => ?_) h ht
    split
    · split
      · split
        · exact inv.awaitTimedOut _ _ _ h
        · exact h
      · exact h
    · exact h
  | strobeReady m unit =>
    unfold Machine.exec execStrobeReady at ht
    refine inv.plainEvent (fun s h => ?_) h ht
    split
    · have hready : Holds Q (modUnit unit (fun x => { x with state := .ready, rechargeTimer := none }) s) := h
      exact arbitrationPass hready
    · exact h
  | rechargeTimerExpiry m unit =>
    unfold Machine.exec execRechargeTimerExpiry at ht
    refine inv.event (fun s h => ?_) h ht
    split
    · exact inv.raise _ h
    · exact h
  | pulseEnd m unit =>
    unfold Machine.exec execPulseEnd at ht
    refine inv.plainEvent (fun s h => ?_) h ht
    split <;> exact h
  | flashDeadline m =>
    unfold Machine.exec execFlashDeadline at ht
    refine inv.event (fun s h => ?_) h ht
    split
    · exact h
    · exact inv.denyFlash _ h
  | frameArrival m station frame => exact inv.event (fun _ h => inv.frameArrives station frame h) h ht
  | frameTimerExpiry m station number =>
    unfold Machine.exec execFrameTimerExpiry at ht
    refine inv.event (fun s h => ?_) h ht
    split
    · exact inv.frameTimeout station number h
    · exact h
  | takeReadCompletion m card =>
    exact inv.event (fun _ h => inv.completeMoverRead _ (fun _ h => inv.takeCompletion card h) h) h ht
  | markingCompletion m =>
    unfold Machine.exec execMarkingCompletion at ht
    refine inv.event (fun s h => ?_) h ht
    split
    · exact inv.afterMarking _ (inv.modMover_of_lists rfl rfl (inv.landRuns _ _ h))
    · exact h
  | writeCompletion m =>
    unfold Machine.exec execWriteCompletion at ht
    refine inv.event (fun s h => ?_) h ht
    split
    · exact inv.finishWrite _ h
    · exact h
  | writeBusError m landed =>
    unfold Machine.exec execWriteBusError at ht
    refine inv.event (fun s h => ?_) h ht
    split
    · exact inv.failWriting _ landed h
    · exact inv.failMarking _ landed h
    · exact h
  | followReadCompletion m next =>
    exact inv.event (fun _ h => inv.completeMoverRead _ (fun _ h => inv.followCompletion next h) h) h ht
  | probeReadCompletion m owner =>
    exact inv.event (fun _ h => inv.completeMoverRead _ (fun _ h => inv.probed owner h) h) h ht
  | loadPlan m slot address => exact inv.orderCommand h ht
  | planReadCompletion m plan =>
    unfold Machine.exec execPlanReadCompletion at ht
    refine inv.event (fun s h => ?_) h ht
    split
    · exact inv.completeRead _ (fun _ h => inv.finishPlan _ plan h) h
    · exact h
  | loadPrograms m slot mask address => exact inv.orderCommand h ht
  | programTableReadCompletion m table =>
    unfold Machine.exec execProgramTableReadCompletion at ht
    refine inv.event (fun s h => ?_) h ht
    split
    · exact inv.completeRead _ (fun _ h => inv.finishPrograms _ _ table h) h
    · exact h
  | openTrack m slot track => exact inv.orderCommand h ht
  | closeTrackNow m slot track => exact inv.orderCommand h ht
  | closeTrackAfter m slot track => exact inv.orderCommand h ht
  | abandonPassage m slot id => exact inv.orderCommand h ht
  | testShot m slot station program speed => exact inv.orderCommand h ht
  | giveChain m slot head => exact inv.orderCommand h ht
  | withdrawCards m slot count address => exact inv.orderCommand h ht
  | addressListReadCompletion m addresses =>
    unfold Machine.exec execAddressListReadCompletion at ht
    refine inv.event (fun s h => ?_) h ht
    split
    · split
      · exact inv.completeRead _ (fun _ h => inv.finishWithdraw _ addresses h) h
      · exact h
    · exact h
  | drain m slot => exact inv.orderCommand h ht
  | snapshot m slot => exact inv.orderCommand h ht
  | setRestRest m slot mask => exact inv.orderCommand h ht
  | setRestWake m slot mask => exact inv.orderCommand h ht
  | gantryTimeWrap m =>
    refine of_next ?_ ht
    exact inv.taken m h

omit inv in
/-- The choice of an expiry touches no store. -/
theorem chooseDue {s t : State} {c : Instr} (hc : chooseDue s = some (c, t)) (h : Holds Q s) : Holds Q t := by
  unfold Machine.chooseDue at hc
  split at hc
  · cases hc
  · cases hc; exact h
  · cases hc; exact h

/-- An invariant of the stores is kept by every step. -/
theorem step {s t : State} (h : Holds Q s) (ht : step s = .next t) : Holds Q t := by
  unfold Machine.step idle at ht
  split at ht
  · split at ht
    · refine of_next ?_ ht
      exact h
    · exact inv.exec _ (chooseDue ‹_› h) ht
  · next c rest _ =>
    have hrest : Holds Q { s with pending := rest } := h
    exact inv.exec c hrest ht

end StoreInvariant

/-! ## Host memory -/

/-- The stores' host memory is canonical. -/
def Stores.memOk (x : Stores) : Prop := Memory.wf x.mem = true

theorem storeInvariant_memOk : StoreInvariant Stores.memOk where
  write _ a b h := Memory.wf_write a b h
  fits _ _ hfit h := by
    unfold Stores.memOk at *
    rw [hfit.mem]
    exact h

/-- Settles O6: canonical memory is an invariant of the stores, and every step keeps such an invariant. -/
theorem stepKeepsMemoryCanonical : Obligations.StepKeepsMemoryCanonical := by
  unfold Obligations.StepKeepsMemoryCanonical
  intro s t hwf hstep
  exact storeInvariant_memOk.step (s := s) hwf hstep

/-! ## Capacities -/

/-- The seven kinds of queue and list of the stores are within their sizes. -/
structure Stores.WithinSizes (x : Stores) : Prop where
  schedule  : x.schedule.length ≤ 48
  axles     : ∀ t : TrackId, x.tracks[t].uQueue.length ≤ 4 ∧ x.tracks[t].dQueue.length ≤ 4
  tiles     : x.mover.queue.length ≤ 8
  withdrawn : x.mover.withdrawn.length ≤ 16
  held      : x.writer.held.length ≤ 8
  notices   : x.writer.notices.length ≤ 64
  parked    : x.engine.parked.length ≤ 4

theorem withinCapacities_iff (s : State) : withinCapacities s = true ↔ s.stores.WithinSizes := by
  simp only [withinCapacities, Bool.and_eq_true, decide_eq_true_eq, List.all_eq_true]
  constructor
  · rintro ⟨⟨⟨⟨⟨⟨hschedule, haxles⟩, htiles⟩, hwithdrawn⟩, hheld⟩, hnotices⟩, hparked⟩
    exact ⟨hschedule, fun t => haxles t (mem_allTracks t), htiles, hwithdrawn, hheld, hnotices, hparked⟩
  · rintro ⟨hschedule, haxles, htiles, hwithdrawn, hheld, hnotices, hparked⟩
    exact ⟨⟨⟨⟨⟨⟨hschedule, fun t _ => haxles t⟩, htiles⟩, hwithdrawn⟩, hheld⟩, hnotices⟩, hparked⟩

/-- A list that fits stays within the size it was within. -/
theorem Fits.within {α : Type} {size : Nat} {l l' : List α} (hfit : Fits size l l') (h : l.length ≤ size) :
    l'.length ≤ size :=
  hfit.trans (max_le le_rfl h)

theorem storeInvariant_withinSizes : StoreInvariant Stores.WithinSizes where
  write _ _ _ h := ⟨h.schedule, h.axles, h.tiles, h.withdrawn, h.held, h.notices, h.parked⟩
  fits _ _ hfit h := {
    schedule := hfit.schedule.within h.schedule
    axles := fun t => ⟨(hfit.tracks t).1.within (h.axles t).1, (hfit.tracks t).2.within (h.axles t).2⟩
    tiles := hfit.mover.1.within h.tiles
    withdrawn := hfit.mover.2.within h.withdrawn
    held := hfit.writer.1.within h.held
    notices := hfit.writer.2.within h.notices
    parked := hfit.parked.within h.parked }

/-- Settles O7: the sizes are an invariant of the stores, and every step keeps such an invariant. -/
theorem stepKeepsCapacities : Obligations.StepKeepsCapacities := by
  unfold Obligations.StepKeepsCapacities
  intro s t hwithin hstep
  rw [withinCapacities_iff] at hwithin ⊢
  exact storeInvariant_withinSizes.step (s := s) hwithin hstep

end Sys2Proof.Machine
end

section
/-! PROOFS. FAILED (10.1, R202): the commands that reach a block change nothing there, and every step keeps every block of a
FAILED device quiet. -/

namespace Sys2Proof.Machine

open Sys2Proof

/-! ## The effects of the plain events leave the device state alone -/

theorem foldl_device {α : Type} {f : State → α → State} (hf : ∀ s a, (f s a).device = s.device) (l : List α) (s : State) :
    (l.foldl f s).device = s.device := by
  induction l generalizing s with
  | nil => rfl
  | cons a l ih => rw [List.foldl_cons, ih, hf]

theorem stationRests_device (st : StationId) (s : State) : (stationRests st s).device = s.device := by
  refine foldl_device (fun s u => ?_) _ s
  split <;> rfl

theorem goToRest_device (st : StationId) (s : State) : (goToRest st s).device = s.device :=
  stationRests_device st (enterResting st s)

theorem beginExposure_device (st : StationId) (length : Nat) (unit : Option UnitId) (dark : Bool) (s : State) :
    (beginExposure st length unit dark s).device = s.device := by
  unfold beginExposure
  split <;> rfl

theorem grant_device (r : FlashRequest) (u : UnitId) (s : State) : (grant r u s).device = s.device := by
  unfold grant
  dsimp only
  rw [beginExposure_device]
  rfl

theorem arbitrationPass_device (s : State) : (arbitrationPass s).device = s.device := by
  refine foldl_device (fun s r => ?_) _ s
  split
  · rfl
  · exact grant_device _ _ _

/-! ## Events and plain events (R202) -/

/-- The base's low half is staged without an event (R174). -/
def stagesBase : Instr → Bool
  | .exchangeBaseLowWrite _ _ => true
  | _ => false

/-- A command that reaches a block is an event, or a plain event whose effect leaves the device state alone. -/
theorem exec_eq_event_or_plainEvent (c : Instr) (s : State) (hstopped : stoppedInFailed c = true)
    (hbase : stagesBase c = false) :
    (∃ f, exec c s = event (momentOf c) f s) ∨
      ∃ f : State → State, (∀ s, (f s).device = s.device) ∧ exec c s = plainEvent (momentOf c) f s := by
  cases c with
  | settleTimerExpiry m t =>
    refine .inr ⟨_, fun s => ?_, execSettleTimerExpiry.eq_1 m t s⟩
    split <;> rfl
  | ignoreTimerExpiry m t =>
    refine .inr ⟨_, fun s => ?_, execIgnoreTimerExpiry.eq_1 m t s⟩
    split <;> rfl
  | restTimerExpiry m st =>
    refine .inr ⟨_, fun s => ?_, execRestTimerExpiry.eq_1 m st s⟩
    split
    · exact goToRest_device st s
    · rfl
  | strobeReady m u =>
    refine .inr ⟨_, fun s => ?_, execStrobeReady.eq_1 m u s⟩
    split
    · exact arbitrationPass_device _
    · rfl
  | pulseEnd m u =>
    refine .inr ⟨_, fun s => ?_, execPulseEnd.eq_1 m u s⟩
    split <;> rfl
  | bounceTimerExpiry m t w => exact .inl ⟨_, execBounceTimerExpiry.eq_1 m t w s⟩
  | axleEntryExpiry m t p => exact .inl ⟨_, execAxleEntryExpiry.eq_1 m t p s⟩
  | scanMessage m t beams => exact .inl ⟨_, execScanMessage.eq_1 m t beams s⟩
  | stuckTimerExpiry m t => exact .inl ⟨_, execStuckTimerExpiry.eq_1 m t s⟩
  | curtainSilenceExpiry m t => exact .inl ⟨_, execCurtainSilenceExpiry.eq_1 m t s⟩
  | tailTimerExpiry m k => exact .inl ⟨_, execTailTimerExpiry.eq_1 m k s⟩
  | dueTimerExpiry m => exact .inl ⟨_, execDueTimerExpiry.eq_1 m s⟩
  | readyAnswer m st => exact .inl ⟨_, execReadyAnswer.eq_1 m st s⟩
  | wakeLimitExpiry m st => exact .inl ⟨_, execWakeLimitExpiry.eq_1 m st s⟩
  | exposureEnd m st => exact .inl ⟨_, execExposureEnd.eq_1 m st s⟩
  | pauseEnd m st => exact .inl ⟨_, execPauseEnd.eq_1 m st s⟩
  | awaitTimerExpiry m st => exact .inl ⟨_, execAwaitTimerExpiry.eq_1 m st s⟩
  | rechargeTimerExpiry m u => exact .inl ⟨_, execRechargeTimerExpiry.eq_1 m u s⟩
  | flashDeadline m => exact .inl ⟨_, execFlashDeadline.eq_1 m s⟩
  | frameArrival m st f => exact .inl ⟨_, execFrameArrival.eq_1 m st f s⟩
  | frameTimerExpiry m st n => exact .inl ⟨_, execFrameTimerExpiry.eq_1 m st n s⟩
  | takeReadCompletion m card => exact .inl ⟨_, execTakeReadCompletion.eq_1 m card s⟩
  | markingCompletion m => exact .inl ⟨_, execMarkingCompletion.eq_1 m s⟩
  | writeCompletion m => exact .inl ⟨_, execWriteCompletion.eq_1 m s⟩
  | writeBusError m n => exact .inl ⟨_, execWriteBusError.eq_1 m n s⟩
  | followReadCompletion m a => exact .inl ⟨_, execFollowReadCompletion.eq_1 m a s⟩
  | probeReadCompletion m b => exact .inl ⟨_, execProbeReadCompletion.eq_1 m b s⟩
  | planReadCompletion m plan => exact .inl ⟨_, execPlanReadCompletion.eq_1 m plan s⟩
  | programTableReadCompletion m table => exact .inl ⟨_, execProgramTableReadCompletion.eq_1 m table s⟩
  | addressListReadCompletion m l => exact .inl ⟨_, execAddressListReadCompletion.eq_1 m l s⟩
  | exchangeBaseHighWrite m v => exact .inl ⟨_, execExchangeBaseHighWrite.eq_1 m v s⟩
  | loadPlan m slot a => exact .inl ⟨_, orderCommand.eq_1 m slot _ s⟩
  | loadPrograms m slot mask a => exact .inl ⟨_, orderCommand.eq_1 m slot _ s⟩
  | openTrack m slot t => exact .inl ⟨_, orderCommand.eq_1 m slot _ s⟩
  | closeTrackNow m slot t => exact .inl ⟨_, orderCommand.eq_1 m slot _ s⟩
  | closeTrackAfter m slot t => exact .inl ⟨_, orderCommand.eq_1 m slot _ s⟩
  | abandonPassage m slot id => exact .inl ⟨_, orderCommand.eq_1 m slot _ s⟩
  | testShot m slot st p v => exact .inl ⟨_, orderCommand.eq_1 m slot _ s⟩
  | giveChain m slot a => exact .inl ⟨_, orderCommand.eq_1 m slot _ s⟩
  | withdrawCards m slot n a => exact .inl ⟨_, orderCommand.eq_1 m slot _ s⟩
  | drain m slot => exact .inl ⟨_, orderCommand.eq_1 m slot _ s⟩
  | snapshot m slot => exact .inl ⟨_, orderCommand.eq_1 m slot _ s⟩
  | setRestRest m slot mask => exact .inl ⟨_, orderCommand.eq_1 m slot _ s⟩
  | setRestWake m slot mask => exact .inl ⟨_, orderCommand.eq_1 m slot _ s⟩
  | exchangeBaseLowWrite m value => exact absurd hbase nofun
  | powerOn | linkReset | controlNone | controlLook | controlStart | controlStop | controlSoftReset | causeWrite
  | noticeRead | registerWriteIgnored | assertingEdge | releasingEdge | gantryTimeWrap =>
    exact absurd hstopped nofun

/-! ## The commands that reach a block (R202) -/

theorem loadable_of_failed {s : State} (h : s.device = .failed) : loadable s = false := by
  rw [loadable, h]
  rfl

theorem execExchangeBaseLowWrite_of_failed {m : Moment} {value : Word} {s : State} (h : (taken m s).device = .failed) :
    execExchangeBaseLowWrite m value s = .next (taken m s) := by
  unfold execExchangeBaseLowWrite
  dsimp only
  rw [loadable_of_failed h, if_neg Bool.false_ne_true]

/-- Settles O4: the commands are events, which a FAILED device lets reach no block. -/
theorem failedStopsBlocks : Obligations.FailedStopsBlocks := by
  unfold Obligations.FailedStopsBlocks
  intro c s hstopped b hfailed
  cases hbase : stagesBase c with
  | true =>
    cases c with
    | exchangeBaseLowWrite m value => exact execExchangeBaseLowWrite_of_failed hfailed
    | _ => exact absurd hbase nofun
  | false =>
    rcases exec_eq_event_or_plainEvent c s hstopped hbase with ⟨f, hevent⟩ | ⟨f, -, hplain⟩
    · exact hevent.trans (event_of_failed hfailed)
    · exact hplain.trans (plainEvent_of_failed hfailed)

/-! ## What keeps a FAILED device quiet -/

theorem failedQuiet_emit (o : Output) {s : State} (h : FailedQuiet s) : FailedQuiet (emit o s) := h

theorem failedQuiet_withIrq {f : State → State} {s : State} (h : FailedQuiet (f s)) : FailedQuiet (withIrq f s) := by
  unfold withIrq
  split
  · exact failedQuiet_emit .msi h
  · exact h

theorem failedQuiet_setEnables (enables : BitVec 5) {s : State} (h : FailedQuiet s) :
    FailedQuiet (setEnables enables s) :=
  failedQuiet_withIrq (f := fun s => { s with enables := enables }) h

theorem failedQuiet_latchFault {s : State} (h : FailedQuiet s) : FailedQuiet (latchFault s) :=
  failedQuiet_withIrq (f := fun s => { s with latches := { s.latches with fault := true } }) h

theorem failedQuiet_enterFailed (reason : FailReason) {s : State} (h : FailedQuiet s) :
    FailedQuiet (enterFailed reason s) := by
  unfold enterFailed
  split
  · exact h
  · exact failedQuiet_hush _

theorem failedQuiet_foldl {α : Type} {f : State → α → State} (hf : ∀ s a, FailedQuiet s → FailedQuiet (f s a))
    (l : List α) {s : State} (h : FailedQuiet s) : FailedQuiet (l.foldl f s) := by
  induction l generalizing s with
  | nil => exact h
  | cons a l ih => exact ih (hf s a h)

theorem failedQuiet_raiseTo (n : Nat) (c : Cause) {s : State} (h : FailedQuiet s) : FailedQuiet (raiseTo n c s) := by
  induction n generalizing c s with
  | zero => exact h
  | succ n ih =>
    unfold raiseTo
    split
    · exact h
    · next hlive =>
      have hplaced : FailedQuiet (placeOnce (.faultNote (noteOf c s)) s).1 := by
        apply failedQuiet_of_live
        rw [(reports_placeOnce (.faultNote (noteOf c s)) s).device]
        exact hlive
      have hnoted : FailedQuiet (if (routeOf c.code s).note = true then
          (placeOnce (.faultNote (noteOf c s)) s).2.2.foldl (fun s c => raiseTo n c s)
            (placeOnce (.faultNote (noteOf c s)) s).1 else s) := by
        split
        · exact failedQuiet_foldl (fun s c h => ih c h) _ hplaced
        · exact h
      split
      · exact failedQuiet_enterFailed _ h
      · dsimp only
        split
        · exact failedQuiet_latchFault hnoted
        · exact hnoted

theorem failedQuiet_raise (c : Cause) {s : State} (h : FailedQuiet s) : FailedQuiet (raise c s) :=
  failedQuiet_raiseTo 8 c h

/-! ## Resets and registers -/

/-- In the reset state every block is as the entry into FAILED leaves it (R203, R204). -/
theorem quiescent_resetBlocks (s : State) : quiescent (resetBlocks s) = true := by
  have htracks : ∀ t : TrackId, quietTrack (resetBlocks s).tracks[t] = true := by
    intro t
    have h : (resetBlocks s).tracks[t] = s.tracks[t].atReset := by simp [resetBlocks]
    rw [h]
    exact beq_iff_eq.2 rfl
  unfold quiescent
  rw [List.all_eq_true.2 fun t _ => htracks t]
  rfl

theorem failedQuiet_selfChecked {passed : Bool} {s : State} (h : quiescent s = true) :
    FailedQuiet (selfChecked passed s) := by
  have hfailed : FailedQuiet { s with device := .failed, failReason := .selfCheck } := fun _ => h
  unfold selfChecked
  split
  · exact fun _ => h
  · exact failedQuiet_withIrq (f := fun s => { s with latches := { s.latches with failed := true } }) hfailed

theorem failedQuiet_hardReset (selfCheck : Bool) (s : State) : FailedQuiet (hardReset selfCheck s) :=
  failedQuiet_selfChecked
    (s := { resetBlocks (stopCardWrite false s) with gantryTime := 0, base := 0, stagedLow := 0, enables := 0 })
    (quiescent_resetBlocks (stopCardWrite false s))

theorem failedQuiet_writeArea (offset : Nat) (bytes : List Byte) {s : State} (h : FailedQuiet s) :
    FailedQuiet (writeArea offset bytes s).1 := by
  have hwritten : FailedQuiet (busWrite (offsetAddr s.base offset) bytes s).1 := h
  unfold writeArea
  dsimp only
  split
  · exact hwritten
  · exact failedQuiet_raise _ hwritten

theorem failedQuiet_writeIdentity {s : State} (h : FailedQuiet s) : FailedQuiet (writeIdentity s) := by
  have hbytes := failedQuiet_writeArea 0 identityBytes h
  unfold writeIdentity
  dsimp only
  split
  · exact failedQuiet_writeArea _ _ hbytes
  · exact hbytes

theorem failedQuiet_softReset (selfCheck : Bool) (s : State) : FailedQuiet (softReset selfCheck s) := by
  have hreset := quiescent_resetBlocks (stopCardWrite false s)
  unfold softReset
  dsimp only
  split
  · exact failedQuiet_selfChecked hreset
  · split
    · exact fun _ => hreset
    · exact failedQuiet_writeIdentity fun _ => hreset

theorem failedQuiet_controlWrite {m : Moment} {enables : BitVec 5} {action : State → State} {s t : State}
    (h : FailedQuiet s) (ht : controlWrite m enables action s = .next t) : FailedQuiet t := by
  unfold controlWrite at ht
  injection ht with ht
  subst ht
  split
  · exact failedQuiet_setEnables enables (failedQuiet_taken m h)
  · exact failedQuiet_conclude _

/-- A read of NOTICE leaves the held records alone (R167). -/
theorem popNotice_held (w : ReportWriter) : (popNotice w).held = w.held := by
  unfold popNotice
  split <;> rfl

theorem failedQuiet_popNotice {s : State} (h : FailedQuiet s) : FailedQuiet (modWriter popNotice s) := by
  intro hfailed
  have hquiet := h hfailed
  unfold quiescent at hquiet ⊢
  rw [modWriter_writer, popNotice_held]
  exact hquiet

/-! ## The level of a wheel line -/

/-- On a track without state an edge moves the level of its line alone (R2, R4). -/
theorem quietTrack_edge {u : TrackUnit} (h : quietTrack u = true) (w : Sensor) (level : Bool) :
    quietTrack (u.modFilter (fun f => { f with asserted := level }) w) = true := by
  have hdrop : u = u.drop := beq_iff_eq.1 h
  rw [hdrop]
  cases w <;> exact beq_iff_eq.2 rfl

/-- A track without state is CLOSED and takes no input (1.1). -/
theorem takesInputs_of_quietTrack {u : TrackUnit} (h : quietTrack u = true) (w : Sensor) (f : WheelFilter → WheelFilter) :
    (u.modFilter f w).state.takesInputs = false := by
  have hdrop : u = u.drop := beq_iff_eq.1 h
  rw [hdrop]
  cases w <;> rfl

/-- A change of one track that leaves it quiet leaves a FAILED device quiet. -/
theorem failedQuiet_modTrack {t : TrackId} {f : TrackUnit → TrackUnit} {s : State}
    (hf : quietTrack s.tracks[t] = true → quietTrack (f s.tracks[t]) = true) (h : FailedQuiet s) :
    FailedQuiet (modTrack t f s) := by
  intro hfailed
  have hquiet := h hfailed
  simp only [quiescent, Bool.and_eq_true] at hquiet ⊢
  obtain ⟨⟨⟨⟨⟨⟨⟨⟨⟨⟨⟨⟨⟨htracks, hpassages⟩, hschedule⟩, htimer⟩, hstations⟩, hunits⟩, hwaiting⟩, hopen⟩, hlingering⟩, hports⟩,
    hmover⟩, hheld⟩, hengine⟩, hundone⟩ := hquiet
  refine ⟨⟨⟨⟨⟨⟨⟨⟨⟨⟨⟨⟨⟨List.all_eq_true.2 fun q _ => ?_, hpassages⟩, hschedule⟩, htimer⟩, hstations⟩, hunits⟩, hwaiting⟩,
    hopen⟩, hlingering⟩, hports⟩, hmover⟩, hheld⟩, hengine⟩, hundone⟩
  have hold : ∀ q : TrackId, quietTrack s.tracks[q] = true := fun q => List.all_eq_true.1 htracks q (mem_allTracks q)
  by_cases hq : t = q
  · subst hq
    rw [getElem_tracks_modTrack]
    exact hf (hold t)
  · rw [getElem_tracks_modTrack_of_ne f s hq]
    exact hold q

theorem failedQuiet_wheelEdge (t : TrackId) (w : Sensor) (level : Bool) (edge : Option Time → WheelFilter → WheelFilter)
    {s : State} (h : FailedQuiet s) : FailedQuiet (wheelEdge t w level edge s) := by
  refine failedQuiet_modTrack (fun hquiet => ?_) h
  dsimp only
  rw [takesInputs_of_quietTrack hquiet, if_neg Bool.false_ne_true]
  exact quietTrack_edge hquiet w level

/-! ## The step -/

theorem failedQuiet_of_next {t u : State} (h : FailedQuiet t)
    (ht : (.next t : Host.Outcome State Fault Refusal) = .next u) : FailedQuiet u := by
  injection ht with ht
  exact ht ▸ h

theorem failedQuiet_exec_of_stopped {c : Instr} {s t : State} (hstopped : stoppedInFailed c = true)
    (hbase : stagesBase c = false) (h : FailedQuiet s) (ht : exec c s = .next t) : FailedQuiet t := by
  rcases exec_eq_event_or_plainEvent c s hstopped hbase with ⟨f, hevent⟩ | ⟨f, hdevice, hplain⟩
  · exact failedQuiet_event h (hevent.symm.trans ht)
  · exact failedQuiet_plainEvent h (fun s hlive => (hdevice s).trans_ne hlive) (hplain.symm.trans ht)

theorem failedQuiet_exec (c : Instr) {s t : State} (h : FailedQuiet s) (ht : exec c s = .next t) : FailedQuiet t := by
  cases c with
  | powerOn m selfCheck => exact failedQuiet_of_next (failedQuiet_hardReset _ _) ht
  | linkReset m selfCheck => exact failedQuiet_of_next (failedQuiet_hardReset _ _) ht
  | controlNone m enables code =>
    exact failedQuiet_of_next (failedQuiet_setEnables enables (failedQuiet_taken m h)) ht
  | controlLook m enables => exact failedQuiet_controlWrite h ht
  | controlStart m enables =>
    have henabled := failedQuiet_setEnables enables (failedQuiet_taken m h)
    refine failedQuiet_of_next ?_ ht
    split
    · exact failedQuiet_of_live nofun
    · exact henabled
  | controlStop m enables => exact failedQuiet_controlWrite h ht
  | controlSoftReset m enables selfCheck => exact failedQuiet_of_next (failedQuiet_softReset _ _) ht
  | exchangeBaseLowWrite m value =>
    have htaken := failedQuiet_taken m h
    refine failedQuiet_of_next ?_ ht
    split <;> exact htaken
  | causeWrite m value =>
    have hcleared : FailedQuiet { taken m s with latches := clearLatches value (taken m s).latches } :=
      failedQuiet_taken m h
    refine failedQuiet_of_next ?_ ht
    unfold remindIrq
    split
    · exact failedQuiet_emit .msi hcleared
    · exact hcleared
  | noticeRead m => exact failedQuiet_of_next (failedQuiet_popNotice (failedQuiet_emit _ (failedQuiet_taken m h))) ht
  | registerWriteIgnored m register value => exact failedQuiet_of_next (failedQuiet_taken m h) ht
  | assertingEdge m track sensor => exact failedQuiet_of_next (failedQuiet_wheelEdge _ _ _ _ (failedQuiet_taken m h)) ht
  | releasingEdge m track sensor => exact failedQuiet_of_next (failedQuiet_wheelEdge _ _ _ _ (failedQuiet_taken m h)) ht
  | gantryTimeWrap m =>
    have hwrapped : FailedQuiet { taken m s with gantryTime := 0 } := failedQuiet_taken m h
    exact failedQuiet_of_next hwrapped ht
  | _ => exact failedQuiet_exec_of_stopped rfl rfl h ht

theorem failedQuiet_chooseDue {s t : State} {c : Instr} (hc : chooseDue s = some (c, t)) (h : FailedQuiet s) :
    FailedQuiet t := by
  unfold chooseDue at hc
  split at hc
  · cases hc
  · cases hc; exact h
  · cases hc; exact h

/-- Settles O5: an event ends with the drop of every block's work in FAILED, and what is no event leaves the blocks be. -/
theorem stepKeepsFailedQuiet : Obligations.StepKeepsFailedQuiet := by
  unfold Obligations.StepKeepsFailedQuiet
  intro s t hquiet hstep
  unfold step idle at hstep
  split at hstep
  · split at hstep
    · have hcounted : FailedQuiet (countUs s) := hquiet
      exact failedQuiet_of_next hcounted hstep
    · exact failedQuiet_exec _ (failedQuiet_chooseDue ‹_› hquiet) hstep
  · next c rest _ =>
    have hrest : FailedQuiet { s with pending := rest } := hquiet
    exact failedQuiet_exec c hrest hstep

end Sys2Proof.Machine
end

section
/-! PROOFS. The step: the command at the front of the queue, and what a step does on an empty queue (log 2). -/

namespace Sys2Proof.Machine

open Sys2Proof

/-! ## The front of the queue -/

theorem step_of_cons {s : State} {c : Instr} {rest : List Instr} (h : s.pending = c :: rest) :
    step s = exec c { s with pending := rest } := by
  rw [step, h]

theorem step_of_nil {s : State} (h : s.pending = []) : step s = idle s := by
  rw [step, h]

/-- Settles O1: a step is a match on the queue. -/
theorem stepTakesFront : Obligations.StepTakesFront := by
  unfold Obligations.StepTakesFront
  exact fun s c rest h => step_of_cons h

/-! ## The choice among the expiries that have come (log 2) -/

theorem idle_of_none {s : State} (h : dueCommands s = []) : idle s = .next (countUs s) := by
  rw [idle, chooseDue, h]

theorem idle_of_one {s : State} {c : Instr} (h : dueCommands s = [c]) : idle s = exec c s := by
  rw [idle, chooseDue, h]

/-- Of several expiries one is taken, and the free counter advances. -/
theorem idle_of_several {s : State} {c d : Instr} {rest : List Instr} (h : dueCommands s = c :: d :: rest) :
    ∃ e ∈ dueCommands s, idle s = exec e { s with freeCount := s.freeCount + 1 } := by
  have hchoice : Config.freeNat s.freeCount % ((d :: rest).length + 1) < (c :: d :: rest).length :=
    Nat.mod_lt _ (Nat.succ_pos _)
  refine ⟨(c :: d :: rest)[Config.freeNat s.freeCount % ((d :: rest).length + 1)], ?_, ?_⟩
  · rw [h]
    exact List.getElem_mem hchoice
  · rw [idle, chooseDue, h, ← List.getD_eq_getElem _ c hchoice]
    rfl

/-! ## The expiries that have come (R205, log 2) -/

/-- A timer has come: it runs and its instant is reached (log 3). -/
def Came (timer : Option Time) (now : Time) : Prop := ∃ x, timer = some x ∧ reached x now = true

theorem expired_iff_came (timer : Option Time) (now : Time) : expired timer now = true ↔ Came timer now := by
  cases timer <;> simp [expired, Came]

theorem mem_whenExpired {c c' : Instr} {timer : Option Time} {s : State} :
    c ∈ whenExpired timer s c' ↔ c = c' ∧ Came timer s.gantryTime := by
  rw [← expired_iff_came, whenExpired]
  split <;> simp_all

theorem came_map {α : Type} (x : Option α) (f : α → Time) (now : Time) :
    Came (x.map f) now ↔ ∃ a, x = some a ∧ reached (f a) now = true := by
  cases x <;> simp [Came]

theorem came_pauseTimer (wait : StepWait) (now : Time) :
    Came wait.pauseTimer now ↔ ∃ instant, wait = .pause instant ∧ reached instant now = true := by
  cases wait <;> simp [Came, StepWait.pauseTimer]

theorem came_awaitTimer (wait : StepWait) (now : Time) :
    Came wait.awaitTimer now ↔ ∃ instant, wait = .await instant ∧ reached instant now = true := by
  cases wait <;> simp [Came, StepWait.awaitTimer]

theorem came_awaited (a : Awaited) (now : Time) :
    Came a.timer now ↔ ∃ instant, a.phase = .waiting instant ∧ reached instant now = true := by
  unfold Awaited.timer
  split <;> simp_all [Came]

theorem came_bind {α : Type} (x : Option α) (f : α → Option Time) (now : Time) :
    Came (x.bind f) now ↔ ∃ a, x = some a ∧ Came (f a) now := by
  cases x <;> simp [Came]

/-- The head of a pair's queue has expired (R10). -/
theorem and_came_axleTimer (prop : Prop) (t : TrackId) (p : Pair) (s : State) :
    prop ∧ Came (axleTimer t p s) s.gantryTime ↔
      ∃ first rest, prop ∧ s.tracks[t].queue p = first :: rest ∧
        reached (plusUs first (pairWindow t p s)) s.gantryTime = true := by
  rw [axleTimer, came_map]
  cases s.tracks[t].queue p <;> simp

theorem mem_trackDue {c : Instr} {s : State} {t : TrackId} :
    c ∈ trackDue s t ↔
      (∃ w, c = .bounceTimerExpiry (idleMoment s) t w ∧ Came (s.tracks[t].filter w).bounce s.gantryTime) ∨
      (c = .settleTimerExpiry (idleMoment s) t ∧ Came s.tracks[t].settleTimer s.gantryTime) ∨
      (c = .ignoreTimerExpiry (idleMoment s) t ∧ Came s.tracks[t].ignoreTimer s.gantryTime) ∨
      (∃ p, c = .axleEntryExpiry (idleMoment s) t p ∧ Came (axleTimer t p s) s.gantryTime) ∨
      (c = .stuckTimerExpiry (idleMoment s) t ∧ Came s.tracks[t].curtain.stuckTimer s.gantryTime) ∨
      (c = .curtainSilenceExpiry (idleMoment s) t ∧ Came s.tracks[t].curtain.silenceTimer s.gantryTime) := by
  have hsensor : ∀ w : Sensor, w ∈ allSensors := by intro w; cases w <;> decide
  have hpair : ∀ p : Pair, p ∈ allPairs := by intro p; cases p <;> decide
  simp only [trackDue, List.mem_append, List.mem_flatMap, mem_whenExpired, hsensor, hpair, true_and, or_assoc]

theorem lingeringEnd_came (st : StationId) (s : State) :
    Came ((lingeringEnd st s).map Lingering.finish) s.gantryTime ↔
      ∃ e ∈ s.lingering, e.station = st ∧ reached e.finish s.gantryTime = true := by
  rw [came_map, lingeringEnd]
  constructor
  · rintro ⟨e, hfind, hreached⟩
    have hstation := List.find?_some hfind
    simp only [Bool.and_eq_true, beq_iff_eq] at hstation
    exact ⟨e, List.mem_of_find?_eq_some hfind, hstation⟩
  · rintro ⟨e, hmem, hstation, hreached⟩
    cases hfind : s.lingering.find? fun x => x.station == st && reached x.finish s.gantryTime with
    | none => exact absurd (List.find?_eq_none.1 hfind e hmem) (by simp [hstation, hreached])
    | some x =>
      have hx := List.find?_some hfind
      simp only [Bool.and_eq_true] at hx
      exact ⟨x, rfl, hx.2⟩

theorem mem_stationDue {c : Instr} {s : State} {st : StationId} :
    c ∈ stationDue s st ↔
      (c = .restTimerExpiry (idleMoment s) st ∧ Came s.stations[st].restTimer s.gantryTime) ∨
      (c = .wakeLimitExpiry (idleMoment s) st ∧ Came s.stations[st].wakeTimer s.gantryTime) ∨
      (c = .exposureEnd (idleMoment s) st ∧
        ((∃ e, s.openExposures[st] = some e ∧ reached e.finish s.gantryTime = true) ∨
          ∃ e ∈ s.lingering, e.station = st ∧ reached e.finish s.gantryTime = true)) ∨
      (∃ r instant, s.stations[st].run = some r ∧ reached instant s.gantryTime = true ∧
        ((c = .pauseEnd (idleMoment s) st ∧ r.wait = .pause instant) ∨
          (c = .awaitTimerExpiry (idleMoment s) st ∧ r.wait = .await instant))) ∨
      (∃ a ∈ s.ports[st].awaited, ∃ instant, c = .frameTimerExpiry (idleMoment s) st a.number ∧
        a.phase = .waiting instant ∧ reached instant s.gantryTime = true) := by
  simp only [stationDue, List.mem_append, List.mem_flatMap, mem_whenExpired, lingeringEnd_came,
    came_map s.openExposures[st], came_bind, came_pauseTimer, came_awaitTimer, came_awaited]
  constructor
  · rintro ((((((h | h) | ⟨hc, h⟩) | ⟨hc, h⟩) | ⟨hc, r, hrun, x, hwait, hx⟩) | ⟨hc, r, hrun, x, hwait, hx⟩) |
      ⟨a, ha, hc, x, hphase, hx⟩)
    · exact .inl h
    · exact .inr (.inl h)
    · exact .inr (.inr (.inl ⟨hc, .inl h⟩))
    · exact .inr (.inr (.inl ⟨hc, .inr h⟩))
    · exact .inr (.inr (.inr (.inl ⟨r, x, hrun, hx, .inl ⟨hc, hwait⟩⟩)))
    · exact .inr (.inr (.inr (.inl ⟨r, x, hrun, hx, .inr ⟨hc, hwait⟩⟩)))
    · exact .inr (.inr (.inr (.inr ⟨a, ha, x, hc, hphase, hx⟩)))
  · rintro (h | h | ⟨hc, h | h⟩ | ⟨r, x, hrun, hx, ⟨hc, hwait⟩ | ⟨hc, hwait⟩⟩ | ⟨a, ha, x, hc, hphase, hx⟩)
    · exact .inl (.inl (.inl (.inl (.inl (.inl h)))))
    · exact .inl (.inl (.inl (.inl (.inl (.inr h)))))
    · exact .inl (.inl (.inl (.inl (.inr ⟨hc, h⟩))))
    · exact .inl (.inl (.inl (.inr ⟨hc, h⟩)))
    · exact .inl (.inl (.inr ⟨hc, r, hrun, x, hwait, hx⟩))
    · exact .inl (.inr ⟨hc, r, hrun, x, hwait, hx⟩)
    · exact .inr ⟨a, ha, hc, x, hphase, hx⟩

theorem mem_contextDue {c : Instr} {s : State} {k : ContextId} :
    c ∈ contextDue s k ↔ ∃ (p : Passage) (tail : TailTimer), c = .tailTimerExpiry (idleMoment s) k ∧
      s.passages[k] = some p ∧ p.tail = some tail ∧ reached tail.expiry s.gantryTime = true := by
  simp only [contextDue, mem_whenExpired, came_bind, came_map]
  exact ⟨fun ⟨hc, p, hp, tail, ht, hr⟩ => ⟨p, tail, hc, hp, ht, hr⟩, fun ⟨p, tail, hc, hp, ht, hr⟩ => ⟨hc, p, hp, tail, ht, hr⟩⟩

theorem mem_flashDue {c : Instr} {s : State} :
    (c ∈ if s.waiting.any fun r => reached r.deadline s.gantryTime then [Instr.flashDeadline (idleMoment s)] else []) ↔
      c = .flashDeadline (idleMoment s) ∧ ∃ r ∈ s.waiting, reached r.deadline s.gantryTime = true := by
  rw [← List.any_eq_true]
  split <;> simp_all

theorem mem_dueCommands {c : Instr} {s : State} :
    c ∈ dueCommands s ↔ (∃ t, c ∈ trackDue s t) ∨ (∃ k, c ∈ contextDue s k) ∨
      (c = .dueTimerExpiry (idleMoment s) ∧ Came s.dueTimer s.gantryTime) ∨ (∃ st, c ∈ stationDue s st) ∨
      (∃ u, c ∈ unitDue s u) ∨
      (c = .flashDeadline (idleMoment s) ∧ ∃ r ∈ s.waiting, reached r.deadline s.gantryTime = true) := by
  simp only [dueCommands, List.mem_append, List.mem_flatMap, mem_whenExpired, mem_flashDue, mem_allTracks,
    mem_allContexts, mem_allStations, mem_allUnits, true_and, or_assoc]

/-- Settles O2: the choice by the number of expiries that have come, and each expiry by the timer behind it. -/
theorem emptyQueueStep : Obligations.EmptyQueueStep := by
  unfold Obligations.EmptyQueueStep
  refine ⟨fun s hempty => ?step, fun s c => ?due⟩
  case step =>
    rw [step_of_nil hempty]
    refine ⟨fun h => idle_of_none h, fun c h => idle_of_one h, fun h => ?_⟩
    match hdue : dueCommands s, h with
    | [c], _ => exact ⟨c, List.mem_singleton.2 rfl, s, .inl rfl, idle_of_one hdue⟩
    | c :: d :: rest, _ =>
      obtain ⟨e, hmem, hidle⟩ := idle_of_several hdue
      exact ⟨e, hdue ▸ hmem, _, .inr rfl, hidle⟩
  case due =>
    intro m came ofTrack ofStation
    have hsensors : ∀ p : Sensor → Prop, (∃ w, p w) ↔ p .uOuter ∨ p .uInner ∨ p .dInner ∨ p .dOuter := by
      intro p
      constructor
      · rintro ⟨w, hw⟩
        cases w <;> simp [hw]
      · rintro (h | h | h | h) <;> exact ⟨_, h⟩
    have hpairs : ∀ p : Pair → Prop, (∃ w, p w) ↔ p .u ∨ p .d := by
      intro p
      constructor
      · rintro ⟨w, hw⟩
        cases w <;> simp [hw]
      · rintro (h | h) <;> exact ⟨_, h⟩
    have htrack : ∀ t, c ∈ trackDue s t ↔ ofTrack t := by
      intro t
      rw [mem_trackDue, hsensors, hpairs, and_came_axleTimer, and_came_axleTimer]
      simp only [or_assoc]
      rfl
    have hunit : ∀ u, c ∈ unitDue s u ↔ (c = .rechargeTimerExpiry m u ∧ came s.units[u].rechargeTimer) ∨
        (c = .pulseEnd m u ∧ came s.units[u].pulseEnd) := by
      intro u
      simp only [unitDue, List.mem_append, mem_whenExpired]
      rfl
    rw [mem_dueCommands]
    simp only [htrack, hunit, mem_stationDue, mem_contextDue]
    rfl

end Sys2Proof.Machine
end

section
/-! PROOFS. The state in which a command is taken, times across the wrap of the count, and the lookups (log 1, log 4, log 27);
the state after reset meets the invariants (10.2). -/

namespace Sys2Proof.Machine

open Sys2Proof

/-! ## The Moment of a command (log 1, log 13) -/

theorem catchUp_of_no_undone {s : State} (h : s.undone = []) : catchUp s = s := by
  rw [catchUp, h]

theorem taken_of_no_undone {m : Moment} {s : State} (h : s.undone = []) : taken m s = arrive m s :=
  catchUp_of_no_undone (s := arrive m s) h

/-! ## Times (log 4) -/

theorem plusUs_toNat (t : Time) (d : Nat) : (plusUs t d).toNat = (t.toNat + d) % 2 ^ 48 := by
  rw [plusUs, BitVec.toNat_add, BitVec.toNat_ofNat, Nat.add_mod_mod]

theorem reached_plusUs (t : Time) {d : Nat} (h : d < 2 ^ 47) : reached t (plusUs t d) = true := by
  rw [reached_iff, plusUs_sub t (by omega)]
  exact h

theorem elapsed_plusUs (t : Time) {d : Nat} (h : d < 2 ^ 47) : elapsed t (plusUs t d) = d := by
  rw [elapsed_of_reached (reached_plusUs t h), plusUs_sub t (by omega)]

/-- A time is not reached from any later microsecond of the half range before it. -/
theorem not_reached_plusUs (t : Time) {d : Nat} (hpos : 0 < d) (h : d < 2 ^ 47) : reached (plusUs t d) t = false := by
  rw [← Bool.not_eq_true, reached_iff, BitVec.toNat_sub, plusUs_toNat]
  have := t.isLt
  omega

theorem toNat_sub_of_le {t u : Time} (h : t.toNat ≤ u.toNat) : (u - t).toNat = u.toNat - t.toNat :=
  BitVec.toNat_sub_of_le h

theorem reached_of_le {t u : Time} (h : t.toNat ≤ u.toNat) (hd : u.toNat - t.toNat < 2 ^ 47) : reached t u = true := by
  rw [reached_iff, toNat_sub_of_le h]
  exact hd

/-- Of two times within half the range of the count the one reaches the other, and both only where they are equal. -/
theorem eq_of_reached_of_le {t u : Time} (h : t.toNat ≤ u.toNat) (hd : u.toNat - t.toNat < 2 ^ 47)
    (hr : reached u t = true) : t = u := by
  rw [reached_iff, BitVec.toNat_sub] at hr
  have := t.isLt
  have := u.isLt
  apply BitVec.eq_of_toNat_eq
  omega

/-! ## Lookups (R48, R53, log 27) -/

theorem passageOf_of_context {id : PassageId} {k : ContextId} {s : State} (h : contextOf id s = some k) :
    passageOf id s = s.passages[k] := by
  rw [passageOf, h]
  rfl

theorem passageOf_of_no_context {id : PassageId} {s : State} (h : contextOf id s = none) : passageOf id s = none := by
  rw [passageOf, h]
  rfl

theorem requestTrack_of_passage {r : Request} {p : Passage} {s : State} (h : passageOf r.pid s = some p) :
    requestTrack r s = p.track := by
  rw [requestTrack, h]

theorem requestTrack_of_no_passage {r : Request} {s : State} (h : passageOf r.pid s = none) :
    requestTrack r s = stationTrack r.station s := by
  rw [requestTrack, h]

theorem sightingOf_of_passage {r : Request} {p : Passage} {s : State} (h : passageOf r.pid s = some p) :
    sightingOf r s = p.sightings.find? fun x => x.number == some r.sighting := by
  rw [sightingOf, h]
  rfl

theorem sightingOf_of_no_passage {r : Request} {s : State} (h : passageOf r.pid s = none) : sightingOf r s = none := by
  rw [sightingOf, h]
  rfl

theorem stationTrack_of_plan {st : StationId} {plan : StationPlan} {s : State} (h : s.stations[st].plan = some plan) :
    stationTrack st s = plan.track := by
  rw [stationTrack, h]

theorem stationTrack_of_no_plan {st : StationId} {s : State} (h : s.stations[st].plan = none) :
    stationTrack st s = 0 := by
  rw [stationTrack, h]

theorem currentStep_of_loaded {r : Run} {program : Program} {s : State} (h : s.programs[r.program] = some program) :
    currentStep r s = some program[r.index] := by
  rw [currentStep, h]
  rfl

theorem currentStep_of_not_loaded {r : Run} {s : State} (h : s.programs[r.program] = none) : currentStep r s = none := by
  rw [currentStep, h]
  rfl

/-- Settles O3: each lookup by whether it finds what it looks for, each comparison of times by its distance. -/
theorem takenAtMoment : Obligations.TakenAtMoment := by
  unfold Obligations.TakenAtMoment
  refine ⟨fun m s h => taken_of_no_undone h, fun mem c cells => ⟨rfl, rfl, fun h x => Memory.read_write c.1 x c.2 h⟩,
    fun t d h => ⟨reached_plusUs t h, elapsed_plusUs t h, fun hpos =>
      ⟨not_reached_plusUs t hpos h, elapsed_of_not_reached (not_reached_plusUs t hpos h)⟩⟩,
    fun t u h hd => ⟨reached_of_le h hd, ?elapsed, eq_of_reached_of_le h hd⟩, fun t u => ⟨rfl, rfl, rfl⟩,
    fun id s => ⟨fun k h => passageOf_of_context h, passageOf_of_no_context⟩,
    fun r s => ⟨fun p h => ⟨requestTrack_of_passage h, sightingOf_of_passage h⟩,
      fun h => ⟨requestTrack_of_no_passage h, sightingOf_of_no_passage h⟩⟩,
    fun st s => ⟨fun plan h => stationTrack_of_plan h, stationTrack_of_no_plan, rfl⟩,
    fun r s => ⟨fun program h => currentStep_of_loaded h, currentStep_of_not_loaded⟩, ⟨rfl, rfl, rfl, rfl⟩,
    fun t s => ⟨fun f => rfl, fun f => rfl, fun l => rfl, fun l => rfl⟩,
    fun st s => ⟨fun f => rfl, fun f => rfl, fun f => rfl⟩⟩
  case elapsed => rw [elapsed_of_reached (reached_of_le h hd), toNat_sub_of_le h]

/-! ## The state after reset (10.2) -/

/-- Settles O8: after reset no list holds anything and the device is DORMANT. -/
theorem resetMeetsInvariants : Obligations.ResetMeetsInvariants :=
  ⟨failedQuiet_of_live nofun, memOk_reset, rfl⟩

end Sys2Proof.Machine
end

section
/-! PROOFS. The end of an event: the parked DRAIN, the end of STOPPING, and what every block drops in FAILED (07, 7.7; 10.1). -/

namespace Sys2Proof.Machine

open Sys2Proof

/-! ## The end of STOPPING (R201) -/

/-- Nothing is open that STOPPING waits for (R201). -/
def NothingOpen (s : State) : Prop :=
  (∀ k : ContextId, s.passages[k] = none) ∧ (∀ st : StationId, s.stations[st].run = none) ∧ s.mover.queue = [] ∧
    s.mover.current = none

theorem anyRun_eq_false_iff (s : State) : anyRun s = false ↔ ∀ st : StationId, s.stations[st].run = none := by
  simp [anyRun, mem_allStations]

theorem stopped_iff (s : State) : stopped s = true ↔ NothingOpen s := by
  simp only [stopped, Bool.and_eq_true, Bool.not_eq_true', anyRun_eq_false_iff, List.all_eq_true, List.isEmpty_iff,
    Option.isNone_iff_eq_none, mem_allContexts, true_implies, NothingOpen, and_assoc]

theorem settleStopping_of_ended {s : State} (hdevice : s.device = .stopping) (h : NothingOpen s) :
    settleStopping s = { s with device := .ready } := by
  rw [settleStopping, if_pos ⟨hdevice, (stopped_iff s).2 h⟩]

theorem settleStopping_of_not_ended {s : State} (h : s.device ≠ .stopping ∨ ¬NothingOpen s) : settleStopping s = s := by
  rw [settleStopping, if_neg]
  rw [stopped_iff]
  exact fun hended => h.elim (fun hd => hd hended.1) (fun hn => hn hended.2)

/-! ## The end of an event (R202, log 15, log 16) -/

theorem conclude_of_failed {s : State} (h : s.device = .failed) : conclude s = hush s := by
  rw [conclude, if_pos h, if_pos h]

theorem conclude_of_live {s : State} (h : s.device ≠ .failed) :
    conclude s = if (settle s).device = .failed then hush (settle s) else settle s := by
  rw [conclude, if_neg h]

theorem conclude_of_settled {s : State} (h : s.device ≠ .failed) (hsettled : (settle s).device ≠ .failed) :
    conclude s = settle s := by
  rw [conclude_of_live h, if_neg hsettled]

/-- Settles O9: the tests of the end of an event come to the test of STOPPING. -/
theorem stoppingEnds : Obligations.StoppingEnds := by
  unfold Obligations.StoppingEnds
  intro s hdevice t ht
  have hlive : s.device ≠ .failed := by rw [hdevice]; nofun
  refine ⟨fun hended => ?ends, fun hopen => ?stays⟩
  case ends =>
    have hsettle : settle s = { t with device := .ready } := settleStopping_of_ended ht hended
    rw [conclude_of_settled hlive (by rw [hsettle]; nofun), hsettle]
  case stays =>
    have hsettle : settle s = t := settleStopping_of_not_ended (.inr hopen)
    rw [conclude_of_settled hlive (by rw [hsettle, ht]; nofun), hsettle]

/-! ## The parked DRAIN (R151, R189) -/

/-- The five things that hold together when a DRAIN ends DONE (R151). -/
def DrainMet (s : State) : Prop :=
  s.mover.queue = [] ∧ s.mover.current = none ∧
    (∀ st : StationId, ∀ r ∈ s.stations[st].run, ∀ e ∈ r.exposures, e.outcome ≠ .pending) ∧
    s.mover.condition ≠ .held ∧ s.writer.held = []

theorem anyPending_eq_false_iff (s : State) :
    anyPending s = false ↔
      ∀ st : StationId, ∀ r ∈ s.stations[st].run, ∀ e ∈ r.exposures, e.outcome ≠ .pending := by
  rw [anyPending, List.any_eq_false]
  refine ⟨fun h st r hr e he hpending => ?_, fun h st _ => ?_⟩
  · have hst := h st (mem_allStations st)
    rw [Option.mem_def.1 hr] at hst
    exact hst (List.any_eq_true.2 ⟨e, he, beq_iff_eq.2 hpending⟩)
  · have hst := h st
    cases hrun : s.stations[st].run with
    | none => simp
    | some r =>
      rw [hrun] at hst
      simpa using hst r rfl

theorem drained_iff (s : State) : drained s = true ↔ DrainMet s := by
  simp only [drained, Bool.and_eq_true, Bool.not_eq_true', anyPending_eq_false_iff, List.isEmpty_iff,
    Option.isNone_iff_eq_none, bne_iff_ne, DrainMet, and_assoc]

theorem drainVerdict_of_context {a : Addr} {s : State} (h : s.mover.drainContext = some a) :
    drainVerdict s = .failed a := by
  rw [drainVerdict, h]

theorem drainVerdict_of_met {s : State} (h : s.mover.drainContext = none) (hmet : DrainMet s) :
    drainVerdict s = .done := by
  rw [drainVerdict, h]
  exact if_pos ((drained_iff s).2 hmet)

theorem drainVerdict_of_not_met {s : State} (h : s.mover.drainContext = none) (hmet : ¬DrainMet s) :
    drainVerdict s = .wait := by
  rw [drainVerdict, h]
  exact if_neg fun hd => hmet ((drained_iff s).1 hd)

/-- The parked orders that wait on something, where exactly one does. -/
theorem finishParked_of_one {w : ParkedFor} {p : Parked} {res : OrderResult} {s : State}
    (h : s.engine.parked.filter (fun p => p.waits == w) = [p]) :
    finishParked w res s = writeFinish p.slot res (unpark p s) := by
  rw [finishParked, h]
  rfl

/-- Some parked order waits on what one does. -/
theorem any_of_filter_eq {w : ParkedFor} {p : Parked} {s : State}
    (h : s.engine.parked.filter (fun p => p.waits == w) = [p]) :
    (s.engine.parked.any fun p => p.waits == w) = true := by
  have hmem : p ∈ s.engine.parked.filter fun p => p.waits == w := by
    rw [h]
    exact List.mem_singleton.2 rfl
  rw [List.mem_filter] at hmem
  exact List.any_eq_true.2 ⟨p, hmem⟩

section ParkedDrain

variable {slot : SlotId} {s : State} (h : s.engine.parked.filter (fun p => p.waits == .drain) = [⟨slot, .drain⟩])
include h

theorem settleDrain_of_context {a : Addr} (ha : s.mover.drainContext = some a) :
    settleDrain s = writeFinish slot (.refused .failed (le 8 a.toNat))
      (unpark ⟨slot, .drain⟩ { s with mover := { s.mover with drainContext := none } }) := by
  rw [settleDrain, if_pos (any_of_filter_eq h), drainVerdict_of_context ha]
  exact finishParked_of_one (s := modMover (fun m => { m with drainContext := none }) s) h

theorem settleDrain_of_met (hcontext : s.mover.drainContext = none) (hmet : DrainMet s) :
    settleDrain s = writeFinish slot (.ok []) (unpark ⟨slot, .drain⟩ s) := by
  rw [settleDrain, if_pos (any_of_filter_eq h), drainVerdict_of_met hcontext hmet]
  exact finishParked_of_one h

theorem settleDrain_of_not_met (hcontext : s.mover.drainContext = none) (hmet : ¬DrainMet s) : settleDrain s = s := by
  rw [settleDrain, if_pos (any_of_filter_eq h), drainVerdict_of_not_met hcontext hmet]

end ParkedDrain

/-! ## What every block drops (R202) -/

theorem hush_tracks (s : State) (t : TrackId) : (hush s).tracks[t] = s.tracks[t].drop := by simp [hush]
theorem hush_stations (s : State) (st : StationId) : (hush s).stations[st] = s.stations[st].fail := by simp [hush]
theorem hush_ports (s : State) (st : StationId) : (hush s).ports[st] = { s.ports[st] with awaited := [] } := by
  simp [hush]
theorem hush_units (s : State) (u : UnitId) : (hush s).units[u] = s.units[u].fail := by simp [hush]

/-- Settles O10: each test by its condition, each block's drop by its own rule. -/
theorem endOfEvent : Obligations.EndOfEvent := by
  unfold Obligations.EndOfEvent
  refine ⟨fun s => ⟨conclude_of_calm, conclude_of_failed, conclude_of_live⟩,
    fun s => ⟨rfl, settleStopping_of_ended, settleStopping_of_not_ended⟩,
    fun s slot hparked => ⟨fun a ha => settleDrain_of_context hparked ha, settleDrain_of_met hparked,
      settleDrain_of_not_met hparked⟩,
    fun s => ⟨rfl, fun t => ⟨hush_tracks s t, rfl⟩, fun st => ⟨hush_stations s st, hush_ports s st⟩,
      fun u => hush_units s u⟩⟩

end Sys2Proof.Machine
end

section
/-! PROOFS. A card write that stops where it stands (07, R140, R141, R154, R155), the resets (10.2, R203, R204), the identity
block (09, R175). -/

namespace Sys2Proof.Machine

open Sys2Proof

/-! ## The bytes of a list of writes that land -/

theorem runsLength_cons (r : Addr × List Byte) (rest : List (Addr × List Byte)) :
    runsLength (r :: rest) = r.2.length + runsLength rest := by
  simp [runsLength]

theorem runsLength_append (runs runs' : List (Addr × List Byte)) :
    runsLength (runs ++ runs') = runsLength runs + runsLength runs' := by
  simp [runsLength]

theorem landRuns_zero (runs : List (Addr × List Byte)) (s : State) : landRuns runs 0 s = s := by
  cases runs with
  | nil => rfl
  | cons r rest => rw [landRuns, if_pos rfl]

/-- A write that lands leaves the part as one output. -/
theorem landRuns_one {n : Nat} (hn : n ≠ 0) (r : Addr × List Byte) (s : State) :
    landRuns [r] n s =
      emit (.hostWrite r.1 (r.2.take n)) { s with mem := (Memory.writeUntilError [] s.mem r.1 (r.2.take n)).1 } := by
  rw [landRuns, if_neg hn]
  rfl

theorem landRuns_cons (r : Addr × List Byte) (rest : List (Addr × List Byte)) (n : Nat) (s : State) :
    landRuns (r :: rest) n s = landRuns rest (n - r.2.length) (landRuns [r] n s) := by
  by_cases hn : n = 0
  · rw [hn, landRuns_zero, landRuns_zero, Nat.zero_sub, landRuns_zero]
  · rw [landRuns_one hn, landRuns, if_neg hn]

/-- Short of all the bytes the last one, the owner byte, does not land. -/
theorem landRuns_append_owner (before : List (Addr × List Byte)) (a : Addr) : ∀ (n : Nat) (s : State),
    n < runsLength (before ++ [(a, [0])]) → landRuns (before ++ [(a, [0])]) n s = landRuns before n s := by
  induction before with
  | nil =>
    intro n s hn
    have hzero : n = 0 := by simpa [runsLength] using hn
    rw [hzero, landRuns_zero, landRuns_zero]
  | cons r rest ih =>
    intro n s hn
    rw [List.cons_append, runsLength_cons, runsLength_append] at hn
    rw [List.cons_append, landRuns_cons, landRuns_cons r rest]
    refine ih _ _ ?_
    rw [runsLength_append]
    simp only [runsLength, List.map_cons, List.map_nil, List.sum_cons, List.sum_nil, List.length_singleton] at hn ⊢
    omega

/-- Of what lands, host memory and the outputs alone change. -/
theorem landRuns_frame (runs : List (Addr × List Byte)) : ∀ (n : Nat) (s : State),
    landRuns runs n s = { s with mem := (landRuns runs n s).mem, outputs := (landRuns runs n s).outputs } := by
  induction runs with
  | nil => exact fun n s => rfl
  | cons r rest ih =>
    intro n s
    by_cases hn : n = 0
    · rw [hn, landRuns_zero]
    · rw [landRuns_cons, landRuns_one hn, ih]
      rfl

/-- The cells of a list of writes lie at its addresses. -/
theorem mem_flatMap_runCells {runs : List (Addr × List Byte)} {c : Host.Cell} (h : c ∈ runs.flatMap runCells) :
    ∃ r ∈ runs, ∃ i, i < r.2.length ∧ c.1 = (offsetAddr r.1 i).toNat := by
  obtain ⟨r, hr, hc⟩ := List.mem_flatMap.1 h
  obtain ⟨i, hi, rfl⟩ := List.mem_map.1 hc
  exact ⟨r, hr, i, List.mem_range.1 hi, rfl⟩

section Landed

variable {runs : List (Addr × List Byte)} {n : Nat} {s : State} (hwf : Memory.wf s.mem = true)
include hwf

/-- An address that no landed byte names reads as before. -/
theorem read_landRuns_of_unnamed {x : Nat} (h : ∀ c ∈ (runs.flatMap runCells).take n, c.1 ≠ x) :
    Memory.read (landRuns runs n s).mem x = Memory.read s.mem x := by
  rw [landRuns_mem]
  exact (Memory.read_writeCells _ hwf).2 x h

theorem read_landRuns_outside {x : Nat} (h : ∀ r ∈ runs, outside x r.1 r.2.length) :
    Memory.read (landRuns runs n s).mem x = Memory.read s.mem x := by
  refine read_landRuns_of_unnamed hwf fun c hc hx => ?_
  obtain ⟨r, hr, i, hi, haddr⟩ := mem_flatMap_runCells (List.mem_of_mem_take hc)
  exact h r hr i hi (hx.symm.trans haddr)

/-- A landed byte stands where no later landed byte has its address. -/
theorem read_landRuns_of_last {i x : Nat} {v : Byte} (hi : i < n)
    (hcell : (runs.flatMap runCells)[i]? = some (x, v))
    (hlast : ∀ j w, i < j → j < n → (runs.flatMap runCells)[j]? ≠ some (x, w)) :
    Memory.read (landRuns runs n s).mem x = v := by
  have hlanded : ((runs.flatMap runCells).take n)[i]? = some (x, v) := by
    rw [List.getElem?_take_of_lt hi]
    exact hcell
  obtain ⟨hlt, hget⟩ := List.getElem?_eq_some_iff.1 hlanded
  rw [landRuns_mem]
  refine (Memory.read_writeCells _ hwf).1 (((runs.flatMap runCells).take n).take i) x v
    (((runs.flatMap runCells).take n).drop (i + 1)) ?_ fun c hc hx => ?_
  · rw [← hget, List.cons_getElem_drop_succ, List.take_append_drop]
  · obtain ⟨k, hk⟩ := List.mem_iff_getElem?.1 hc
    rw [List.getElem?_drop] at hk
    have hbound : i + 1 + k < n := by
      have hlen := (List.getElem?_eq_some_iff.1 hk).1
      rw [List.length_take] at hlen
      omega
    rw [List.getElem?_take_of_lt hbound] at hk
    refine hlast (i + 1 + k) c.2 (by omega) hbound ?_
    rw [hk, ← hx]

theorem read_landRuns_of_not_landed {x : Nat} (h : ∀ i v, i < n → (runs.flatMap runCells)[i]? ≠ some (x, v)) :
    Memory.read (landRuns runs n s).mem x = Memory.read s.mem x := by
  refine read_landRuns_of_unnamed hwf fun c hc hx => ?_
  obtain ⟨i, hi⟩ := List.mem_iff_getElem?.1 hc
  have hbound : i < n := by
    have hlen := (List.getElem?_eq_some_iff.1 hi).1
    rw [List.length_take] at hlen
    omega
  rw [List.getElem?_take_of_lt hbound] at hi
  refine h i c.2 hbound ?_
  rw [hi, ← hx]

end Landed

/-! ## The writes of the phase in progress (R140, R141) -/

theorem phaseRuns_of_writing {m : TileMover} {c : CurrentCard} (hphase : m.phase = .writing) (hc : m.current = some c) :
    phaseRuns m = writingRuns c := by
  rw [phaseRuns, hphase, hc]

theorem phaseRuns_of_marking {m : TileMover} {c : MarkedCard} (hphase : m.phase = .marking) (hc : m.marked = some c) :
    phaseRuns m = markingRuns c := by
  rw [phaseRuns, hphase, hc]

theorem phaseRuns_of_other {m : TileMover} (hwriting : m.phase ≠ .writing) (hmarking : m.phase ≠ .marking) :
    phaseRuns m = [] := by
  unfold phaseRuns
  split
  · exact absurd ‹_› hwriting
  · exact absurd ‹_› hmarking
  · rfl

theorem writingRuns_eq (c : CurrentCard) :
    let kept := c.tile.bytes.take c.capacity
    writingRuns c = [(c.buffer, kept),
      (offsetAddr c.address 2, [if c.capacity < c.tile.bytes.length then 2 else 1, byteOf c.tile.station.val]),
      (offsetAddr c.address 24, le 4 kept.length ++ le 2 c.tile.pid.toNat ++
        [byteOf c.tile.number, byteOf c.tile.sighting]), (c.address, [0])] := by
  by_cases hcut : c.capacity < c.tile.bytes.length <;>
    simp [writingRuns, deviceFields, cutTile, isCut, hcut, statusTruncated, statusFilled, ownerHost]

/-- The writes of a phase end with the owner byte, and so are not empty. -/
theorem phaseRuns_eq_nil_or (m : TileMover) : phaseRuns m = [] ∨ ∃ before a, phaseRuns m = before ++ [(a, [0])] := by
  unfold phaseRuns
  split
  · exact .inr ⟨_, _, rfl⟩
  · exact .inr ⟨[_], _, rfl⟩
  · exact .inl rfl

/-! ## A card write stopped (R154, R155, log 8) -/

theorem stopCardWrite_of_no_runs {whole : Bool} {s : State} (h : phaseRuns s.mover = []) : stopCardWrite whole s = s := by
  rw [stopCardWrite, h]

theorem stopCardWrite_of_runs {whole : Bool} {s : State} (h : phaseRuns s.mover ≠ []) :
    stopCardWrite whole s = landRuns (phaseRuns s.mover)
      (Config.freeNat s.freeCount % (runsLength (phaseRuns s.mover) + boolNat whole))
      { s with freeCount := s.freeCount + 1 } := by
  unfold stopCardWrite
  split
  · next hnil => exact absurd hnil h
  · rfl

/-- A remainder by a length stays short of it, by the length and one more it may come to the length. -/
theorem mod_length_lt_or {k length : Nat} (whole : Bool) (hpos : 0 < length) :
    k % (length + boolNat whole) < length ∨ whole = true ∧ k % (length + boolNat whole) = length := by
  cases whole with
  | false => exact .inl (Nat.mod_lt _ hpos)
  | true =>
    have := Nat.mod_lt k (Nat.succ_pos length)
    exact (Nat.lt_succ_iff_lt_or_eq.1 this).imp id fun h => ⟨rfl, h⟩

/-- Settles O11: the free number is a remainder below the length of the writes, and their bytes land in order. -/
theorem cardWriteStops : Obligations.CardWriteStops := by
  unfold Obligations.CardWriteStops
  refine ⟨fun whole s => ⟨stopCardWrite_of_no_runs, fun hruns => ?stops⟩,
    fun m => ⟨fun c hphase hc => ⟨_, phaseRuns_of_writing hphase hc⟩,
      fun c hphase hc => ⟨[_], phaseRuns_of_marking hphase hc⟩⟩,
    fun m => ⟨fun c hphase hc => (phaseRuns_of_writing hphase hc).trans (writingRuns_eq c),
      fun c hphase hc => phaseRuns_of_marking hphase hc, phaseRuns_of_other, fun runs => rfl⟩,
    fun before a n s hn => landRuns_append_owner before a n s hn,
    fun runs n s hwf => ⟨landRuns_frame runs n s, fun x hx => read_landRuns_outside hwf hx,
      fun i x v hi hcell hlast => read_landRuns_of_last hwf hi hcell hlast,
      fun x hx => read_landRuns_of_not_landed hwf hx⟩,
    fun r rest n s => ⟨rfl, landRuns_zero _ _, landRuns_cons r rest n s, fun hn => ?output⟩⟩
  case stops =>
    obtain hnil | ⟨before, a, hbefore⟩ := phaseRuns_eq_nil_or s.mover
    · exact absurd hnil hruns
    · have hpos : 0 < runsLength (phaseRuns s.mover) := by
        rw [hbefore, runsLength_append]
        exact Nat.succ_pos _
      exact ⟨_, mod_length_lt_or whole hpos, stopCardWrite_of_runs hruns⟩
  case output =>
    rw [landRuns_one (Nat.pos_iff_ne_zero.1 hn)]
    rfl

/-! ## The interrupt message of a change (R212) -/

theorem withIrq_of_silent {f : State → State} {s : State} (h : irqCondition s = true ∨ irqCondition (f s) = false) :
    withIrq f s = f s := by
  rw [withIrq, if_neg]
  rcases h with h | h <;> simp [h]

theorem withIrq_of_rising {f : State → State} {s : State} (hbefore : irqCondition s = false)
    (hafter : irqCondition (f s) = true) : withIrq f s = { f s with outputs := (f s).outputs ++ [.msi] } := by
  rw [withIrq, if_pos (by simp [hbefore, hafter])]
  rfl

theorem irqCondition_of_no_enables {s : State} (h : s.enables = 0) : irqCondition s = false := by
  simp [irqCondition, h]

theorem withIrq_enables (f : State → State) (s : State) : (withIrq f s).enables = (f s).enables := by
  unfold withIrq
  split <;> rfl

theorem withIrq_failReason (f : State → State) (s : State) : (withIrq f s).failReason = (f s).failReason := by
  unfold withIrq
  split <;> rfl

/-! ## Resets (R203, R204) -/

/-- Of a card write that stops, host memory, the outputs and the free counter alone change. -/
theorem stopCardWrite_frame (whole : Bool) (s : State) :
    stopCardWrite whole s = { s with
      mem := (stopCardWrite whole s).mem, outputs := (stopCardWrite whole s).outputs
      freeCount := (stopCardWrite whole s).freeCount } := by
  by_cases hruns : phaseRuns s.mover = []
  · rw [stopCardWrite_of_no_runs hruns]
  · rw [stopCardWrite_of_runs hruns, landRuns_frame]

/-- With the enables 0, as a power-on leaves them, the latch of CAUSE.FAILED sends no message. -/
theorem latchFailed_of_no_enables {s : State} (h : s.enables = 0) :
    latchFailed s = { s with latches := { s.latches with failed := true } } :=
  withIrq_of_silent (.inr (irqCondition_of_no_enables h))

/-- The state after a power-on or a link reset, by the outcome of the self check (R203, R213). -/
theorem hardReset_eq (ok : Bool) (s : State) :
    hardReset ok s = { State.reset with
      tracks := (stopCardWrite false s).tracks.map TrackUnit.atReset
      device := if ok then .dormant else .failed
      failReason := if ok then .none else .selfCheck
      latches := { orders := false, dry := false, fault := false, failed := !ok }
      mem := (stopCardWrite false s).mem, readErrors := (stopCardWrite false s).readErrors
      writeErrors := (stopCardWrite false s).writeErrors, outputs := (stopCardWrite false s).outputs
      freeCount := (stopCardWrite false s).freeCount, pending := (stopCardWrite false s).pending } := by
  cases ok with
  | true => rfl
  | false =>
    unfold hardReset selfChecked
    rw [if_neg Bool.false_ne_true, latchFailed_of_no_enables rfl]
    rfl

/-- The self check is made again where it had failed (R204). -/
theorem checkAgain_iff (s : State) : checkAgain s = true ↔ s.device = .failed ∧ s.failReason = .selfCheck := by
  simp [checkAgain]

theorem stopCardWrite_failReason (whole : Bool) (s : State) : (stopCardWrite whole s).failReason = s.failReason := by
  rw [stopCardWrite_frame]

theorem stopCardWrite_enables (whole : Bool) (s : State) : (stopCardWrite whole s).enables = s.enables := by
  rw [stopCardWrite_frame]

/-- A soft reset ends at a repeated self check that fails again (R204). -/
theorem softReset_of_failed_check {s : State} (hdevice : s.device = .failed) (hreason : s.failReason = .selfCheck) :
    softReset false s =
      latchFailed { resetBlocks (stopCardWrite false s) with device := .failed, failReason := .selfCheck } := by
  rw [softReset, if_pos ⟨(checkAgain_iff s).2 ⟨hdevice, hreason⟩, rfl⟩]
  rfl

/-- Else it writes the identity block where the base is valid (R204). -/
theorem softReset_of_passed {ok : Bool} {s : State}
    (h : ¬(s.device = .failed ∧ s.failReason = .selfCheck ∧ ok = false)) :
    softReset ok s = if (stopCardWrite false s).base = 0 then resetBlocks (stopCardWrite false s)
      else writeIdentity (resetBlocks (stopCardWrite false s)) := by
  rw [softReset, if_neg]
  · rfl
  · rw [checkAgain_iff]
    exact fun ⟨⟨hdevice, hreason⟩, hok⟩ => h ⟨hdevice, hreason, hok⟩

/-- Settles O12: the reset of the blocks, then the self check of a hard reset or the identity block of a soft one. -/
theorem resets : Obligations.Resets := by
  unfold Obligations.Resets
  refine ⟨fun m ok s => ⟨congrArg _ (hardReset_eq ok _), congrArg _ (hardReset_eq ok _)⟩, fun m e ok s => ?_⟩
  intro b t
  have henables : b.enables = e := (stopCardWrite_enables _ _).trans (withIrq_enables _ _)
  have hdevice : b.device = (setEnables e (taken m s)).device := stopCardWrite_device _ _
  have hreason : b.failReason = (setEnables e (taken m s)).failReason := stopCardWrite_failReason _ _
  have hblocks : resetBlocks b = t := by
    show _ = { resetBlocks b with enables := e }
    rw [← henables]
    rfl
  rw [hdevice, hreason]
  refine ⟨fun hfailed hcheck hok => ?failed, fun hpassed => ⟨fun hbase => ?noBase, fun hbase => ?base⟩⟩
  case failed =>
    subst hok
    exact congrArg _ ((softReset_of_failed_check hfailed hcheck).trans (by rw [hblocks]))
  case noBase => exact congrArg _ ((softReset_of_passed hpassed).trans ((if_pos hbase).trans hblocks))
  case base => exact congrArg _ ((softReset_of_passed hpassed).trans ((if_neg hbase).trans (by rw [hblocks])))

/-! ## The identity block (R175, R214) -/

theorem length_padTo {n : Nat} {bytes : List Byte} (h : bytes.length ≤ n) : (padTo n bytes).length = n := by
  rw [padTo, List.length_append, List.length_replicate]
  omega

theorem length_le (n x : Nat) : (le n x).length = n := by simp [le]

/-- The 15 bytes of the identity block that its layout names (11.2). -/
def identityFields : List Byte := le 2 0x4840 ++ [Config.revision, 0, 4, 8, 6, 48, 12] ++ le 2 512 ++ [16, 16, 32, 27]

theorem length_identityFields : identityFields.length = 15 := rfl

theorem identityBytes_eq : identityBytes = identityFields ++ List.replicate 240 0 := rfl

theorem length_identityBytes : identityBytes.length = 255 :=
  length_padTo (bytes := identityFields) (by rw [length_identityFields]; omega)

theorem foldl_identity : (identityBytes ++ [integrityByte]).foldl (· + ·) 0 = 0 := by
  rw [List.foldl_append]
  show byteSum identityBytes + -byteSum identityBytes = 0
  exact BitVec.add_right_neg _

/-- A bus write to which no address answers with an error lands whole. -/
theorem busWrite_of_writable {a : Addr} {bytes : List Byte} {s : State} (hwf : Memory.wf s.mem = true)
    (hlen : bytes.length ≤ 2 ^ 64) (h : ∀ i, i < bytes.length → (offsetAddr a i).toNat ∉ s.writeErrors) :
    ∃ mem, Memory.wf mem = true ∧
      busWrite a bytes s = ({ s with mem := mem, outputs := s.outputs ++ [.hostWrite a bytes] }, true) ∧
      (Memory.writeUntilError s.writeErrors s.mem a bytes).2 = bytes.length ∧
      (∀ i, i < bytes.length → Memory.read mem (offsetAddr a i).toNat = bytes.getD i 0) ∧
      ∀ x, outside x a bytes.length → Memory.read mem x = Memory.read s.mem x := by
  obtain ⟨hlanded, hreads, hothers⟩ := Memory.writeUntilError_spec s.writeErrors bytes bytes.length s.mem a hwf hlen le_rfl h
    fun hlt => absurd hlt (lt_irrefl _)
  refine ⟨(Memory.writeUntilError s.writeErrors s.mem a bytes).1, Memory.wf_writeUntilError _ _ _ hwf, ?_, hlanded, hreads,
    hothers⟩
  rw [busWrite, hlanded, List.take_length, beq_self_eq_true]
  rfl

theorem writeArea_of_writable {offset : Nat} {bytes : List Byte} {s : State} (hwf : Memory.wf s.mem = true)
    (hlen : bytes.length ≤ 2 ^ 64) (h : ∀ i, i < bytes.length → (offsetAddr s.base (offset + i)).toNat ∉ s.writeErrors) :
    ∃ mem, Memory.wf mem = true ∧
      writeArea offset bytes s =
        ({ s with mem := mem, outputs := s.outputs ++ [.hostWrite (offsetAddr s.base offset) bytes] }, true) ∧
      (∀ i, i < bytes.length → Memory.read mem (offsetAddr s.base (offset + i)).toNat = bytes.getD i 0) ∧
      ∀ x, outside x (offsetAddr s.base offset) bytes.length → Memory.read mem x = Memory.read s.mem x := by
  obtain ⟨mem, hmem, hwrite, -, hreads, hothers⟩ := busWrite_of_writable (a := offsetAddr s.base offset) hwf hlen
    fun i hi => by
      rw [offsetAddr_offsetAddr]
      exact h i hi
  refine ⟨mem, hmem, ?_, fun i hi => ?_, hothers⟩
  · rw [writeArea, hwrite]
    rfl
  · rw [← offsetAddr_offsetAddr]
    exact hreads i hi

/-- The identity block written to an area without bus errors: two writes, one output each, the integrity byte last. -/
theorem writeIdentity_of_writable {s : State} (hwf : Memory.wf s.mem = true) (h : writable s.base 256 s) :
    ∃ mem, writeIdentity s = { s with
        mem := mem
        outputs := s.outputs ++ [.hostWrite s.base identityBytes, .hostWrite (offsetAddr s.base 255) [integrityByte]] } ∧
      (∀ i, i < 256 → Memory.read mem (offsetAddr s.base i).toNat = (identityBytes ++ [integrityByte]).getD i 0) ∧
      ∀ x, outside x s.base 256 → Memory.read mem x = Memory.read s.mem x := by
  have hlen := length_identityBytes
  obtain ⟨mem, hmem, hwrite, hreads, hothers⟩ := writeArea_of_writable (offset := 0) (bytes := identityBytes) hwf
    (by rw [hlen]; omega) fun i hi => h (0 + i) (by omega)
  obtain ⟨mem', hmem', hwrite', hreads', hothers'⟩ := writeArea_of_writable (offset := 255) (bytes := [integrityByte])
    (s := { s with mem := mem, outputs := s.outputs ++ [.hostWrite (offsetAddr s.base 0) identityBytes] }) hmem
    (by simp) fun i hi => h (255 + i) (by simp only [List.length_singleton] at hi; omega)
  refine ⟨mem', ?_, fun i hi => ?_, fun x hx => ?_⟩
  · rw [writeIdentity, hwrite]
    dsimp only
    rw [if_pos rfl, hwrite']
    dsimp only
    rw [offsetAddr_zero, List.append_assoc]
    rfl
  · by_cases hlast : i = 255
    · subst hlast
      rw [List.getD_append_right _ _ _ _ hlen.le, hlen]
      exact hreads' 0 (by simp)
    · rw [hothers' _ (outside_offsetAddr s.base (by omega) (by simp) fun k hk => by
        simp only [List.length_singleton] at hk; omega)]
      have hread := hreads i (by omega)
      rw [Nat.zero_add] at hread
      dsimp only at hread ⊢
      rw [hread, List.getD_append _ _ _ _ (by omega)]
  · rw [hothers' x, hothers x]
    · rw [offsetAddr_zero, hlen]
      exact fun i hi => hx i (by omega)
    · intro i hi
      simp only [List.length_singleton] at hi
      rw [offsetAddr_offsetAddr]
      exact hx (255 + i) (by omega)

/-- Settles O13: two writes that land whole; the integrity byte makes the sum 0. -/
theorem identityBlock : Obligations.IdentityBlock := by
  unfold Obligations.IdentityBlock
  refine ⟨fun s hwf hwritable => ?written, length_identityBytes, foldl_identity, rfl, fun i hlow hhigh => ?zeros⟩
  case written =>
    obtain ⟨mem, hstate, hreads, hothers⟩ := writeIdentity_of_writable hwf hwritable
    intro t
    have ht : t = _ := hstate
    rw [ht]
    have hlen : (identityBytes ++ [integrityByte]).length = 256 := by
      rw [List.length_append, length_identityBytes, List.length_singleton]
    rw [← hlen] at hreads
    have hbytes := busRead_of_reads (t := { s with
      mem := mem
      outputs := s.outputs ++ [.hostWrite s.base identityBytes, .hostWrite (offsetAddr s.base 255) [integrityByte]] })
      hreads
    rw [hlen] at hbytes
    exact ⟨rfl, hbytes, hothers⟩
  case zeros =>
    rw [identityBytes_eq, List.getElem?_append_right (by rw [length_identityFields]; exact hlow),
      List.getElem?_replicate_of_lt (by rw [length_identityFields]; omega)]

end Sys2Proof.Machine
end

section
/-! PROOFS. The registers (09, 9.1; 10, 10.4): CONTROL without an action, START and STOP, the exchange base, CAUSE, and the
words the registers read as. -/

namespace Sys2Proof.Machine

open Sys2Proof

/-! ## CONTROL without an action, the ignored writes, the wrap (R173, R176, R205) -/

/-- Settles O14: the enables are a change that sends a message where the interrupt condition rises with it. -/
theorem plainRegisterWrites : Obligations.PlainRegisterWrites := by
  unfold Obligations.PlainRegisterWrites
  refine ⟨fun m e code s => ⟨fun hbefore hafter => ?rises, fun hsilent => ?silent⟩, fun m s => ⟨fun _ _ => rfl, rfl⟩⟩
  case rises => exact congrArg _ (withIrq_of_rising (f := fun s => { s with enables := e }) hbefore hafter)
  case silent => exact congrArg _ (withIrq_of_silent (f := fun s => { s with enables := e }) hsilent)

/-! ## START (R199) -/

/-- Settles O15: the device state alone decides. -/
theorem controlStart : Obligations.ControlStart := by
  unfold Obligations.ControlStart
  exact fun m e s => ⟨fun hready => congrArg _ (if_pos hready), fun hother => congrArg _ (if_neg hother)⟩

/-! ## STOP (R200) -/

theorem controlWrite_of_live {m : Moment} {e : BitVec 5} {action : State → State} {s : State}
    (h : (setEnables e (taken m s)).device ≠ .failed) :
    controlWrite m e action s = .next (conclude (action (setEnables e (taken m s)))) :=
  congrArg _ (if_neg h)

theorem controlWrite_of_failed {m : Moment} {e : BitVec 5} {action : State → State} {s : State}
    (h : (setEnables e (taken m s)).device = .failed) :
    controlWrite m e action s = .next (setEnables e (taken m s)) :=
  congrArg _ (if_pos h)

theorem exec_controlStop (m : Moment) (e : BitVec 5) (s : State) :
    exec (.controlStop m e) s = controlWrite m e (fun s => if s.device = .watching then stop s else s) s :=
  rfl

theorem finishParked_of_none {w : ParkedFor} {res : OrderResult} {s : State} (h : s.engine.parked = []) :
    finishParked w res s = s := by
  rw [finishParked, h]
  rfl

/-- A fold whose every step changes nothing. -/
theorem foldl_of_fixed {α : Type} {f : State → α → State} {s : State} {l : List α} (h : ∀ a ∈ l, f s a = s) :
    l.foldl f s = s := by
  induction l with
  | nil => rfl
  | cons a l ih =>
    rw [List.foldl_cons, h a List.mem_cons_self]
    exact ih fun b hb => h b (List.mem_cons_of_mem _ hb)

theorem endTrackPassages_of_free {t : TrackId} {s : State} (h : ∀ k : ContextId, s.passages[k] = none) :
    endTrackPassages t s = s :=
  foldl_of_fixed fun k _ => by rw [endPassageAt, h k]

/-- With no passage and no parked order a closure NOW drops the state of the track. -/
theorem closeNow_of_free {t : TrackId} {s : State} (hparked : s.engine.parked = [])
    (hfree : ∀ k : ContextId, s.passages[k] = none) : closeNow t s = modTrack t TrackUnit.drop s := by
  rw [closeNow, enterClosed, finishParked_of_none (s := modTrack t TrackUnit.drop s) hparked,
    endTrackPassages_of_free (s := modTrack t TrackUnit.drop s) hfree]

theorem abortPassage_of_no_runs {pid : PassageId} {s : State} (h : ∀ st : StationId, s.stations[st].run = none) :
    abortPassage pid s = s :=
  foldl_of_fixed fun st _ => by rw [h st]

theorem removal_of_no_schedule {pid : PassageId} {reason : MissReason} {s : State} (h : s.schedule = []) :
    removal pid reason s = s := by
  have hmissed : missAll reason (s.schedule.filter fun r => r.pid == pid) s = s := by
    rw [h]
    rfl
  rw [removal_of_empty (by rw [hmissed, h]), hmissed]

/-- The four tracks take an update one after the other. -/
theorem modTrack_each (f : TrackUnit → TrackUnit) (s : State) :
    modTrack 3 f (modTrack 2 f (modTrack 1 f (modTrack 0 f s))) = { s with tracks := s.tracks.map f } := by
  have htracks : (modTrack 3 f (modTrack 2 f (modTrack 1 f (modTrack 0 f s)))).tracks = s.tracks.map f := by
    apply Vector.ext
    intro i hi
    have hcases : i = 0 ∨ i = 1 ∨ i = 2 ∨ i = 3 := by omega
    rcases hcases with rfl | rfl | rfl | rfl <;> simp
  rw [← htracks]
  rfl

theorem closeNow_each {s : State} (hparked : s.engine.parked = []) (hfree : ∀ k : ContextId, s.passages[k] = none) :
    closeNow 3 (closeNow 2 (closeNow 1 (closeNow 0 s))) = { s with tracks := s.tracks.map TrackUnit.drop } := by
  rw [closeNow_of_free (s := s) hparked hfree, closeNow_of_free (s := modTrack 0 _ s) hparked hfree,
    closeNow_of_free (s := modTrack 1 _ (modTrack 0 _ s)) hparked hfree,
    closeNow_of_free (s := modTrack 2 _ (modTrack 1 _ (modTrack 0 _ s))) hparked hfree, modTrack_each]

theorem stop_eq (s : State) :
    stop s = abortPassage 0 (removal 0 .abandoned
      (closeNow 3 (closeNow 2 (closeNow 1 (closeNow 0 { s with device := .stopping }))))) := by
  simp only [stop, allTracks, List.foldl_cons, List.foldl_nil]

/-- A parked DRAIN is wanting where no order is parked. -/
theorem settleDrain_of_none {s : State} (h : s.engine.parked = []) : settleDrain s = s := by
  rw [settleDrain, h]
  rfl

/-- The part in STOPPING with nothing parked and nothing open enters READY at the end of the event (R201). -/
theorem conclude_of_nothing_open {s : State} (hdevice : s.device = .stopping) (hparked : s.engine.parked = [])
    (h : NothingOpen s) : conclude s = { s with device := .ready } := by
  have hsettle : settle s = { s with device := .ready } := by
    rw [settle, settleDrain_of_none hparked, settleStopping_of_ended hdevice h]
  rw [conclude_of_settled (by rw [hdevice]; nofun) (by rw [hsettle]; nofun), hsettle]

/-- Settles O16: a STOP in WATCHING is the fold over the four tracks, the removal and the aborts. -/
theorem controlStop : Obligations.ControlStop := by
  unfold Obligations.ControlStop
  refine ⟨fun m e s => ?_, fun t s => rfl⟩
  intro b
  have hstop : b.device = .watching → exec (.controlStop m e) s = .next (conclude (abortPassage 0 (removal 0 .abandoned
      (closeNow 3 (closeNow 2 (closeNow 1 (closeNow 0 { b with device := .stopping }))))))) := by
    intro hwatching
    have hlive : b.device ≠ .failed := by rw [hwatching]; nofun
    rw [exec_controlStop, controlWrite_of_live hlive, if_pos hwatching, stop_eq]
  refine ⟨hstop, fun hwatching hfree hruns hschedule hparked hqueue hcurrent => ?nothingOpen, fun hfailed => ?failed,
    fun hother hlive => ?ignored⟩
  case nothingOpen =>
    rw [hstop hwatching, closeNow_each (s := { b with device := .stopping }) hparked hfree]
    generalize hclosed : ({ b with device := .stopping, tracks := b.tracks.map TrackUnit.drop } : State) = c
    rw [removal_of_no_schedule (s := c) (by rw [← hclosed]; exact hschedule),
      abortPassage_of_no_runs (s := c) (by rw [← hclosed]; exact hruns), ← hclosed]
    exact congrArg _ (conclude_of_nothing_open rfl hparked ⟨hfree, hruns, hqueue, hcurrent⟩)
  case failed => rw [exec_controlStop, controlWrite_of_failed hfailed]
  case ignored => rw [exec_controlStop, controlWrite_of_live hlive, if_neg hother]

/-! ## The exchange base (R174, R175) -/

theorem loadable_iff (s : State) : loadable s = true ↔ s.device = .dormant ∨ s.device = .ready := by
  simp [loadable]

theorem setWidth_ushiftRight_eq_extractLsb' (value : Word) :
    (value >>> 12).setWidth 20 = value.extractLsb' 12 20 := by
  apply BitVec.eq_of_getLsbD_eq
  intro i hi
  simp [hi]

/-- A bus write lands whole where no address answers with an error, and only there. -/
theorem writeUntilError_whole_iff (errors : List Nat) (bytes : List Byte) : ∀ (m : Memory) (a : Addr),
    (Memory.writeUntilError errors m a bytes).2 = bytes.length ↔
      ∀ i, i < bytes.length → (offsetAddr a i).toNat ∉ errors := by
  induction bytes with
  | nil => simp [Memory.writeUntilError]
  | cons b bs ih =>
    intro m a
    unfold Memory.writeUntilError
    split
    · next hbad =>
      refine ⟨fun h => absurd h (Nat.succ_ne_zero _).symm, fun h => ?_⟩
      have hfirst := h 0 (Nat.succ_pos _)
      rw [offsetAddr_zero] at hfirst
      exact absurd (List.contains_iff_mem.1 hbad) hfirst
    · next hgood =>
      simp only [List.length_cons, Nat.add_right_cancel_iff]
      rw [ih]
      refine ⟨fun h i hi => ?_, fun h i hi => ?_⟩
      · cases i with
        | zero =>
          rw [offsetAddr_zero]
          exact fun hmem => hgood (List.contains_iff_mem.2 hmem)
        | succ i =>
          rw [← offsetAddr_succ]
          exact h i (by omega)
      · rw [offsetAddr_succ]
        exact h (i + 1) (by omega)

theorem busWrite_whole_iff (a : Addr) (bytes : List Byte) (s : State) :
    (busWrite a bytes s).2 = true ↔ ∀ i, i < bytes.length → (offsetAddr a i).toNat ∉ s.writeErrors := by
  rw [← writeUntilError_whole_iff s.writeErrors bytes s.mem a]
  exact beq_iff_eq

/-- A FATAL cause takes a live device into FAILED (R202). -/
theorem raise_of_fatal {c : Cause} {s : State} (hlive : s.device ≠ .failed) (h : c.code.cls = .fatal) :
    raise c s = enterFailed (failReasonOf c.code) s := by
  rw [raise, raiseTo, if_neg hlive, if_pos h]

theorem enterFailed_failReason {reason : FailReason} {s : State} (hlive : s.device ≠ .failed) :
    (enterFailed reason s).failReason = reason := by
  rw [enterFailed, if_neg hlive]
  show (stopCardWrite true _).failReason = _
  rw [stopCardWrite_failReason]
  exact withIrq_failReason _ _

/-- A device FAILED by a FATAL cause other than DOUBLE FAULT (R202). -/
def FatallyFailed (s : State) : Prop := s.device = .failed ∧ s.failReason = .fatalCause

theorem fatallyFailed_exchangeRead (offset : Nat) {s : State} (hlive : s.device ≠ .failed) :
    FatallyFailed (exchangeRead offset s) := by
  rw [exchangeRead, raise_of_fatal hlive rfl]
  exact ⟨enterFailed_device _ _, enterFailed_failReason hlive⟩

theorem writeArea_of_whole {offset : Nat} {bytes : List Byte} {s : State}
    (h : (busWrite (offsetAddr s.base offset) bytes s).2 = true) :
    writeArea offset bytes s = ((busWrite (offsetAddr s.base offset) bytes s).1, true) := by
  rw [writeArea, if_pos h]

theorem writeArea_of_error {offset : Nat} {bytes : List Byte} {s : State} (hlive : s.device ≠ .failed)
    (h : ¬(busWrite (offsetAddr s.base offset) bytes s).2 = true) :
    (writeArea offset bytes s).2 = false ∧ FatallyFailed (writeArea offset bytes s).1 := by
  rw [writeArea, if_neg h]
  exact ⟨rfl, fatallyFailed_exchangeRead _ hlive⟩

/-- What the identity block leaves of the device state and the parked orders where no bus error meets it. -/
theorem writeIdentity_device_of_writable {s : State} (h : writable s.base 256 s) :
    (writeIdentity s).device = s.device ∧ (writeIdentity s).engine = s.engine := by
  have hlen := length_identityBytes
  have hbytes : (busWrite (offsetAddr s.base 0) identityBytes s).2 = true := by
    rw [busWrite_whole_iff, offsetAddr_zero]
    exact fun i hi => h i (by omega)
  have hintegrity : (busWrite (offsetAddr s.base 255) [integrityByte]
      (busWrite (offsetAddr s.base 0) identityBytes s).1).2 = true := by
    rw [busWrite_whole_iff]
    intro i hi
    rw [offsetAddr_offsetAddr]
    simp only [List.length_singleton] at hi
    exact h (255 + i) (by omega)
  rw [writeIdentity, writeArea_of_whole hbytes]
  dsimp only
  rw [if_pos rfl, writeArea_of_whole hintegrity]
  exact ⟨rfl, rfl⟩

/-- A bus error at the identity block takes the device into FAILED (R175). -/
theorem writeIdentity_of_not_writable {s : State} (hlive : s.device ≠ .failed) (h : ¬writable s.base 256 s) :
    FatallyFailed (writeIdentity s) := by
  have hlen := length_identityBytes
  by_cases hbytes : (busWrite (offsetAddr s.base 0) identityBytes s).2 = true
  · have hintegrity : ¬(busWrite (offsetAddr s.base 255) [integrityByte]
        (busWrite (offsetAddr s.base 0) identityBytes s).1).2 = true := by
      rw [busWrite_whole_iff] at hbytes ⊢
      intro hlast
      refine h fun i hi => ?_
      by_cases hi255 : i < 255
      · rw [offsetAddr_zero] at hbytes
        exact hbytes i (by omega)
      · have hi255 : i = 255 := by omega
        subst hi255
        have h0 := hlast 0 (by simp)
        rw [offsetAddr_offsetAddr] at h0
        exact h0
    rw [writeIdentity, writeArea_of_whole hbytes]
    dsimp only
    rw [if_pos rfl]
    exact (writeArea_of_error (s := (busWrite (offsetAddr s.base 0) identityBytes s).1) hlive hintegrity).2
  · obtain ⟨hflag, hfailed⟩ := writeArea_of_error hlive hbytes
    rw [writeIdentity, hflag]
    exact hfailed

theorem calm_of_parked_nil {s : State} (hlive : s.device ≠ .failed) (hstopping : s.device ≠ .stopping)
    (hparked : s.engine.parked = []) : calm s = true := by
  simp [calm, hlive, hstopping, hparked]

theorem baseTaken_iff (s : State) :
    baseTaken s = true ↔ (s.device = .dormant ∨ s.device = .ready) ∧ s.engine.scan = none ∧ s.engine.parked = [] := by
  simp only [baseTaken, Bool.and_eq_true, loadable_iff, Option.isNone_iff_eq_none, List.isEmpty_iff, and_assoc]

theorem execExchangeBaseHighWrite_of_live {m : Moment} {value : Word} {s : State}
    (h : (taken m s).device ≠ .failed) :
    exec (.exchangeBaseHighWrite m value) s =
      .next (conclude (if baseTaken (taken m s) then takeBase value (taken m s) else taken m s)) :=
  event_of_live h

theorem fatallyFailed_conclude {s : State} (h : FatallyFailed s) : FatallyFailed (conclude s) := by
  rw [conclude_of_failed h.1]
  exact h

/-- Settles O17: staging by the device state; a taken base by whether it is valid and its identity block writable. -/
theorem exchangeBaseWrites : Obligations.ExchangeBaseWrites := by
  unfold Obligations.ExchangeBaseWrites
  refine ⟨fun m value s => ⟨fun hload => ?staged, fun hload => ?notStaged⟩, fun m value s => ?high⟩
  case staged =>
    rw [← loadable_iff] at hload
    rw [← setWidth_ushiftRight_eq_extractLsb']
    exact congrArg _ (if_pos hload)
  case notStaged =>
    rw [← loadable_iff] at hload
    exact congrArg _ (if_neg hload)
  case high =>
    intro b open_ base t
    have hlive : open_ → b.device ≠ .failed := by
      rintro ⟨hdormant | hready, -⟩
      · rw [hdormant]; nofun
      · rw [hready]; nofun
    have hcalm : ∀ u : State, u.device = b.device → u.engine = b.engine → open_ → conclude u = u := by
      intro u hdevice hengine hopen
      refine conclude_of_calm (calm_of_parked_nil (by rw [hdevice]; exact hlive hopen) ?_ (by rw [hengine]; exact hopen.2.2))
      rw [hdevice]
      rcases hopen.1 with h | h <;> rw [h] <;> nofun
    have hexec : open_ → exec (.exchangeBaseHighWrite m value) s =
        .next (conclude (if base = 0 then t else writeIdentity t)) := by
      intro hopen
      rw [execExchangeBaseHighWrite_of_live (hlive hopen), if_pos ((baseTaken_iff b).2 hopen)]
      rfl
    refine ⟨fun hopen hzero => ?noBase, fun hopen hbase hwritable => ?written, fun hopen hbase hwritable => ?error,
      fun hfailed hopen => ?ignored⟩
    case noBase => rw [hexec hopen, if_pos hzero, hcalm t rfl rfl hopen]
    case written =>
      obtain ⟨hdevice, hengine⟩ := writeIdentity_device_of_writable (s := t) hwritable
      rw [hexec hopen, if_neg hbase, hcalm _ hdevice hengine hopen]
    case error =>
      have hfailed := fatallyFailed_conclude (writeIdentity_of_not_writable (s := t) (hlive hopen) hwritable)
      exact ⟨_, (hexec hopen).trans (by rw [if_neg hbase]), hfailed⟩
    case ignored => rw [execExchangeBaseHighWrite_of_live hfailed, if_neg (fun h => hopen ((baseTaken_iff b).1 h))]

/-! ## CAUSE (R211, R212) -/

/-- Settles O19: the latches are cleared bit by bit, then the condition is tested. -/
theorem causeWrite : Obligations.CauseWrite := by
  unfold Obligations.CauseWrite
  intro m value s b t
  exact ⟨fun hirq => congrArg _ (if_pos hirq), fun hirq => congrArg _ (if_neg (Bool.eq_false_iff.1 hirq))⟩

/-! ## The words of the registers (9.1) -/

/-- The five CAUSE bits from their five values. -/
theorem getLsbD_fiveBits (b0 b1 b2 b3 b4 : Bool) :
    let bits := BitVec.ofNat 5 (boolNat b0 + 2 * boolNat b1 + 4 * boolNat b2 + 8 * boolNat b3 + 16 * boolNat b4)
    bits.getLsbD 0 = b0 ∧ bits.getLsbD 1 = b1 ∧ bits.getLsbD 2 = b2 ∧ bits.getLsbD 3 = b3 ∧ bits.getLsbD 4 = b4 := by
  revert b0 b1 b2 b3 b4
  decide

theorem irqCondition_iff (s : State) :
    irqCondition s = true ↔ ∃ i, (causeBits s).getLsbD i = true ∧ s.enables.getLsbD i = true := by
  rw [irqCondition, bne_iff_ne]
  constructor
  · intro hne
    by_contra hnone
    refine hne (BitVec.eq_of_getLsbD_eq fun i _ => ?_)
    have hzero : (0 : BitVec 5).getLsbD i = false := BitVec.getLsbD_zero
    rw [BitVec.getLsbD_and, hzero, ← Bool.not_eq_true, Bool.and_eq_true]
    exact fun h => hnone ⟨i, h⟩
  · rintro ⟨i, hcause, henable⟩ hzero
    have hbit := congrArg (fun x => BitVec.getLsbD x i) hzero
    simp [hcause, henable] at hbit

theorem identWord_eq : identWord = 0x4840#16 ++ 0#8 ++ Config.revision := by
  rw [identWord]
  generalize Config.revision = revision
  apply BitVec.eq_of_toNat_eq
  have hlt := revision.isLt
  have hpart : (0x4840#16 ++ 0#8).toNat = 0x484000 := by decide
  rw [BitVec.toNat_append, hpart, ← Nat.shiftLeft_add_eq_or_of_lt hlt, BitVec.toNat_ofNat, Nat.shiftLeft_eq]
  omega

theorem baseHighWord_append_baseLowWord (s : State) : baseHighWord s ++ baseLowWord s = s.base := by
  apply BitVec.eq_of_getLsbD_eq
  intro i hi
  rw [BitVec.getLsbD_append, baseLowWord, baseHighWord]
  by_cases hlow : i < 32
  · simp [hlow]
  · have hhigh : i - 32 < 32 := by omega
    have hsum : 32 + (i - 32) = i := by omega
    simp [hlow, hhigh, hsum]

/-- A word of five bits is its bits below zeros. -/
theorem setWidth_fiveBits (x : BitVec 5) : x.setWidth 32 = 0#27 ++ x := by
  apply BitVec.eq_of_toNat_eq
  rw [BitVec.toNat_append, BitVec.toNat_setWidth]
  have := x.isLt
  simp
  omega

theorem statusWord_toNat {s : State} (hparked : s.engine.parked.length ≤ 4) (hheld : s.writer.held.length ≤ 8) :
    (statusWord s).toNat = s.device.code + 16 * s.failReason.code + 256 * s.mover.condition.code +
      4096 * s.writer.overflow.toNat + 65536 * s.engine.parked.length + 1048576 * s.writer.held.length := by
  have hdevice : s.device.code ≤ 4 := by cases s.device <;> decide
  have hreason : s.failReason.code ≤ 3 := by cases s.failReason <;> decide
  have hcondition : s.mover.condition.code ≤ 2 := by cases s.mover.condition <;> decide
  have hoverflow : boolNat s.writer.overflow = s.writer.overflow.toNat := by cases s.writer.overflow <;> rfl
  have hbit : s.writer.overflow.toNat ≤ 1 := Bool.toNat_le _
  rw [statusWord, hoverflow, BitVec.toNat_ofNat]
  omega

/-- Settles O18: each bit and each word by its own lemma, each latch by the change it makes. -/
theorem registerWords : Obligations.RegisterWords := by
  unfold Obligations.RegisterWords
  refine ⟨fun s => ?bits, fun s => ⟨identWord_eq, baseHighWord_append_baseLowWord s, setWidth_fiveBits _,
    setWidth_fiveBits _, statusWord_toNat⟩, ⟨rfl, rfl, rfl⟩, fun f s => ⟨withIrq_of_rising, withIrq_of_silent⟩,
    fun s => ⟨rfl, rfl, rfl, rfl, fun e => rfl⟩⟩
  case bits =>
    obtain ⟨hrows, horders, hdry, hfault, hfailed⟩ :=
      getLsbD_fiveBits (rowsBit s) s.latches.orders s.latches.dry s.latches.fault s.latches.failed
    exact ⟨hrows, horders, hdry, hfault, hfailed, irqCondition_iff s⟩

end Sys2Proof.Machine
end

section
/-! PROOFS. What a LOOK does at the tile mover, and when it finds nothing to do elsewhere (R146, R164, R179). -/

namespace Sys2Proof.Machine

open Sys2Proof

/-! ## The tile mover -/

theorem beginRead_of_live {phase : Phase} {a : Addr} {length : Nat} {s : State} (h : s.device ≠ .failed) :
    beginRead phase a length s =
      { s with mover := { s.mover with phase := phase }, outputs := s.outputs ++ [.hostRead a length] } := if_neg h

/-- A read of the mover writes the mover and announces itself. -/
theorem beginRead_frame (phase : Phase) (a : Addr) (length : Nat) (s : State) :
    ∃ mover outputs, beginRead phase a length s = { s with mover := mover, outputs := outputs } := by
  unfold beginRead
  split
  · exact ⟨s.mover, s.outputs, rfl⟩
  · exact ⟨_, _, rfl⟩

theorem tryTake_frame (s : State) : ∃ mover outputs, tryTake s = { s with mover := mover, outputs := outputs } := by
  unfold tryTake
  split
  · split
    · exact beginRead_frame _ _ _ _
    · exact ⟨s.mover, s.outputs, rfl⟩
  · exact ⟨s.mover, s.outputs, rfl⟩
  · exact ⟨s.mover, s.outputs, rfl⟩

theorem rereadDry_frame (s : State) : ∃ mover outputs, rereadDry s = { s with mover := mover, outputs := outputs } := by
  unfold rereadDry
  split
  · exact beginRead_frame _ _ _ _
  · exact beginRead_frame _ _ _ _
  · exact ⟨s.mover, s.outputs, rfl⟩

theorem releaseHold_frame (s : State) : ∃ mover outputs, releaseHold s = { s with mover := mover, outputs := outputs } := by
  generalize ht : modMover (fun m => { m with condition := .ok, hold := none }) s = t
  have hback : ∀ u : State, (∃ mover outputs, u = { t with mover := mover, outputs := outputs }) →
      ∃ mover outputs, u = { s with mover := mover, outputs := outputs } := by
    subst ht; exact fun _ h => h
  unfold releaseHold
  rw [ht]
  dsimp only
  split
  · exact hback _ (tryTake_frame t)
  · exact hback _ (beginRead_frame _ _ _ _)
  · exact hback _ ⟨t.mover, t.outputs, rfl⟩

/-- A LOOK writes of the state the mover alone, and its reads are announced. -/
theorem lookMover_frame (s : State) : ∃ mover outputs, lookMover s = { s with mover := mover, outputs := outputs } := by
  unfold lookMover
  split
  · exact ⟨_, s.outputs, rfl⟩
  · exact ⟨_, s.outputs, rfl⟩
  · exact ⟨_, s.outputs, rfl⟩
  · exact ⟨s.mover, s.outputs, rfl⟩
  · exact ⟨s.mover, s.outputs, rfl⟩
  · split
    · exact ⟨s.mover, s.outputs, rfl⟩
    · exact rereadDry_frame s
    · exact releaseHold_frame s

theorem lookMover_of_reading {s : State}
    (h : s.mover.phase = .taking ∨ s.mover.phase = .following ∨ s.mover.phase = .probing) :
    lookMover s = { s with mover := { s.mover with lookPending := true } } := by
  rcases h with h | h | h <;> (unfold lookMover; rw [h]; rfl)

theorem lookMover_of_writing {s : State} (h : s.mover.phase = .writing ∨ s.mover.phase = .marking) :
    lookMover s = s := by
  rcases h with h | h <;> (unfold lookMover; rw [h])

section
variable {s : State} (hidle : s.mover.phase = .idle)
include hidle

theorem lookMover_of_ok (hok : s.mover.condition = .ok) : lookMover s = s := by
  unfold lookMover; rw [hidle, hok]

theorem lookMover_of_dry (hdry : s.mover.condition = .dry) : lookMover s = rereadDry s := by
  unfold lookMover; rw [hidle, hdry]

theorem lookMover_of_held (hheld : s.mover.condition = .held) : lookMover s = releaseHold s := by
  unfold lookMover; rw [hidle, hheld]

end

section
variable {a : Addr} {s : State}

theorem rereadDry_of_absent (hcursor : s.mover.cursor = .absent) : rereadDry s = s := by
  unfold rereadDry; rw [hcursor]

theorem rereadDry_of_at (hlive : s.device ≠ .failed) (hcursor : s.mover.cursor = .at a) :
    rereadDry s = { s with mover := { s.mover with phase := .probing }, outputs := s.outputs ++ [.hostRead a 1] } := by
  unfold rereadDry; rw [hcursor]; exact beginRead_of_live hlive

theorem rereadDry_of_after (hlive : s.device ≠ .failed) (hcursor : s.mover.cursor = .after a) :
    rereadDry s =
      { s with mover := { s.mover with phase := .following }, outputs := s.outputs ++ [.hostRead (a + 16) 8] } := by
  unfold rereadDry; rw [hcursor]; exact beginRead_of_live hlive

theorem releaseHold_of_after (hlive : s.device ≠ .failed) (hcursor : s.mover.cursor = .after a) :
    releaseHold s = { s with
      mover := { s.mover with condition := .ok, hold := none, phase := .following }
      outputs := s.outputs ++ [.hostRead (a + 16) 8] } := by
  have hc : (modMover (fun m => { m with condition := .ok, hold := none }) s).mover.cursor = .after a := hcursor
  unfold releaseHold; dsimp only; rw [hc]
  exact beginRead_of_live hlive

theorem releaseHold_of_at (hcursor : s.mover.cursor = .at a) :
    releaseHold s = tryTake { s with mover := { s.mover with condition := .ok, hold := none } } := by
  have hc : (modMover (fun m => { m with condition := .ok, hold := none }) s).mover.cursor = .at a := hcursor
  unfold releaseHold; dsimp only; rw [hc]; rfl

theorem tryTake_of_no_tiles (h : s.mover.queue = []) : tryTake s = s := by
  unfold tryTake
  split
  · exact if_neg fun hc => hc.1 h
  · rfl
  · rfl

theorem tryTake_of_ready (hlive : s.device ≠ .failed) (hcursor : s.mover.cursor = .at a) (hqueue : s.mover.queue ≠ [])
    (hok : s.mover.condition = .ok) (hidle : s.mover.phase = .idle) :
    tryTake s = { s with mover := { s.mover with phase := .taking }, outputs := s.outputs ++ [.hostRead a 32] } := by
  unfold tryTake; rw [hcursor]
  exact (if_pos ⟨hqueue, hok, hidle⟩).trans (beginRead_of_live hlive)

end

/-! ## The report writer and the order engine -/

theorem lookWriter_of_failed {s : State} (h : s.device = .failed) : lookWriter s = s := if_pos (by simp [h])

theorem lookWriter_of_no_base {s : State} (h : s.base = 0) : lookWriter s = s := if_pos (by simp [h])

theorem retryPass_of_none_held {s : State} (n : Nat) (h : s.writer.held = []) : retryPass n s = s := by
  cases n with
  | zero => rfl
  | succ n => rw [retryPass, h]

theorem lookWriter_of_none_held {s : State} (h : s.writer.held = []) : lookWriter s = s := by
  unfold lookWriter
  split
  · rfl
  · exact retryPass_of_none_held _ h

theorem lookEngine_of_failed {s : State} (h : s.device = .failed) : lookEngine s = s := if_pos (.inl h)

theorem lookEngine_of_no_base {s : State} (h : s.base = 0) : lookEngine s = s := if_pos (.inr h)

theorem lookEngine_of_scanning {s : State} (hlive : s.device ≠ .failed) (hbase : s.base ≠ 0)
    (hscan : s.engine.scan ≠ none) : lookEngine s = { s with engine := { s.engine with lookAgain := true } } := by
  unfold lookEngine
  rw [if_neg (not_or.2 ⟨hlive, hbase⟩), if_pos (Option.isSome_iff_ne_none.2 hscan)]
  rfl

theorem lookEngine_of_no_scan {s : State} (hlive : s.device ≠ .failed) (hbase : s.base ≠ 0)
    (hscan : s.engine.scan = none) :
    lookEngine s =
      endScan (visitSlots allSlots { s with engine := { s.engine with scan := some 0, lookAgain := false } }) := by
  unfold lookEngine
  rw [if_neg (not_or.2 ⟨hlive, hbase⟩), if_neg (by simp [hscan])]
  rfl

theorem exec_controlLook (m : Moment) (e : BitVec 5) (s : State) :
    exec (.controlLook m e) s = controlWrite m e look s := execControlLook.eq_1 m e s

theorem look_of_failed {s : State} (h : (lookWriter (lookMover s)).device = .failed) :
    look s = lookWriter (lookMover s) := by
  unfold look; dsimp only; rw [if_pos h]
  exact lookEngine_of_failed h

theorem look_of_live {s : State} (h : (lookWriter (lookMover s)).device ≠ .failed) :
    look s = lookEngine (settle (lookWriter (lookMover s))) := by
  unfold look; dsimp only; rw [if_neg h]

/-! ## A scan that finds no slot POSTED -/

theorem scanStops_iff (s : State) : scanStops s = true ↔ s.device = .failed ∨ s.engine.executing ≠ none := by
  simp [scanStops, Option.isSome_iff_ne_none]

theorem endScan_of_stopped {s : State} (h : s.device = .failed ∨ s.engine.executing ≠ none) : endScan s = s :=
  if_pos ((scanStops_iff s).2 h)

theorem endScan_of_not_stopped {s : State} (h : ¬(s.device = .failed ∨ s.engine.executing ≠ none)) :
    endScan s = { s with engine := { s.engine with scan := none } } :=
  if_neg fun hc => h ((scanStops_iff s).1 hc)

theorem busReadFails_iff (a : Addr) (n : Nat) (s : State) :
    busReadFails a n s = true ↔ ∃ i, i < n ∧ (offsetAddr a i).toNat ∈ s.readErrors := by
  simp [busReadFails]

/-- No slot reads POSTED, and every state byte can be read. -/
def NonePosted (s : State) : Prop := s.readErrors = [] ∧ ∀ slot : SlotId, busRead (slotAddr slot s) 1 s ≠ [1]

theorem visitSlot_of_none_posted {s : State} (h : NonePosted s) (slot : SlotId) :
    visitSlot slot s = { s with engine := { s.engine with scan := some slot } } := by
  obtain ⟨herrors, hbytes⟩ := h
  have hreads : busReadFails (slotAddr slot s) 1 s ≠ true := by simp [busReadFails, herrors]
  unfold visitSlot
  dsimp only
  split
  · rfl
  · exact (if_neg hreads).trans (if_neg (hbytes slot))

theorem visitSlots_of_none_posted : ∀ (slots : List SlotId) {s : State}, NonePosted s →
    ∃ at_, visitSlots slots s = { s with engine := { s.engine with scan := at_ } }
  | [], s, _ => ⟨s.engine.scan, rfl⟩
  | slot :: rest, s, h => by
    change ∃ at_, visitSlots rest (if scanStops s then s else visitSlot slot s) = _
    split
    · exact visitSlots_of_none_posted rest h
    · rw [visitSlot_of_none_posted h]
      generalize ht : ({ s with engine := { s.engine with scan := some slot } } : State) = t
      obtain ⟨at_, hrest⟩ := visitSlots_of_none_posted rest (s := t) (by subst ht; exact h)
      subst ht
      exact ⟨at_, hrest⟩

theorem lookEngine_of_none_posted {s : State} (hlive : s.device ≠ .failed) (hbase : s.base ≠ 0)
    (hscan : s.engine.scan = none) (hexecuting : s.engine.executing = none) (h : NonePosted s) :
    lookEngine s = { s with engine := { s.engine with scan := none, lookAgain := false } } := by
  rw [lookEngine_of_no_scan hlive hbase hscan]
  generalize ht : ({ s with engine := { s.engine with scan := some 0, lookAgain := false } } : State) = t
  obtain ⟨at_, hvisit⟩ := visitSlots_of_none_posted allSlots (s := t) (by subst ht; exact h)
  rw [hvisit, endScan_of_not_stopped]
  · subst ht; rfl
  · subst ht; exact not_or.2 ⟨hlive, not_not.2 hexecuting⟩

theorem not_nothingOpen_iff (s : State) : ¬NothingOpen s ↔
    (∃ k : ContextId, s.passages[k] ≠ none) ∨ (∃ st : StationId, s.stations[st].run ≠ none) ∨ s.mover.queue ≠ [] ∨
      s.mover.current ≠ none := by
  simp only [NothingOpen, not_and_or, not_forall, ne_eq]

theorem live_of_calm {s : State} (h : calm s = true) : s.device ≠ .failed := by
  simp only [calm, Bool.and_eq_true, bne_iff_ne] at h
  exact h.1.1

/-- Settles O21: each case is the mover's, and a scan that finds nothing POSTED ends where it began. -/
theorem lookAtMover : Obligations.LookAtMover := by
  unfold Obligations.LookAtMover
  intro m e s b
  have hexec : b.device ≠ .failed → exec (.controlLook m e) s = .next (conclude (look b)) :=
    fun hlive => (exec_controlLook m e s).trans (controlWrite_of_live hlive)
  refine ⟨fun hcalm hbase => ?_, fun hlive => ⟨lookMover_of_reading, lookMover_of_writing, lookMover_of_ok,
    fun hidle hdry hcursor => ?_, fun a hidle hdry hcursor => ?_, fun a hidle hdry hcursor => ?_,
    fun a hidle hheld hcursor => ?_, fun a hidle hheld hcursor hqueue => ?_, fun a hidle hheld hcursor hqueue => ?_⟩,
    ⟨fun hfailed => (exec_controlLook m e s).trans (controlWrite_of_failed hfailed),
      fun hlive hfailed => ?_, fun hlive hlive' => ?_⟩, ?_⟩
  · have hlive : b.device ≠ .failed := live_of_calm hcalm
    rw [hexec hlive]
    obtain ⟨mover, outputs, hl⟩ := lookMover_frame b
    generalize hu : lookMover b = u at hl
    have hwriter : lookWriter u = u := lookWriter_of_no_base (by subst hl; exact hbase)
    have hcalm' : calm u = true := by subst hl; exact hcalm
    rw [look_of_live (by rw [hu, hwriter, hl]; exact hlive), hu, hwriter, settle_of_calm hcalm',
      lookEngine_of_no_base (by subst hl; exact hbase), conclude_of_calm hcalm']
  · rw [lookMover_of_dry hidle hdry, rereadDry_of_absent hcursor]
  · rw [lookMover_of_dry hidle hdry, rereadDry_of_at hlive hcursor]
  · rw [lookMover_of_dry hidle hdry, rereadDry_of_after hlive hcursor]
  · rw [lookMover_of_held hidle hheld, releaseHold_of_after hlive hcursor]
  · rw [lookMover_of_held hidle hheld, releaseHold_of_at hcursor]
    exact tryTake_of_no_tiles hqueue
  · rw [lookMover_of_held hidle hheld, releaseHold_of_at hcursor]
    exact tryTake_of_ready hlive hcursor hqueue rfl hidle
  · rw [hexec hlive, look_of_failed hfailed]
  · rw [hexec hlive, look_of_live hlive']; rfl
  · intro hbase hidle hok hheld hscan hexecuting herrors hbytes scanned open_
    have hwhole : lookWriter (lookMover b) = b := by rw [lookMover_of_ok hidle hok, lookWriter_of_none_held hheld]
    have hlook : b.device ≠ .failed → look b = lookEngine (settle b) := fun hlive => by
      rw [look_of_live (by rw [hwhole]; exact hlive), hwhole]
    have hopen : open_ ↔ ¬NothingOpen b := (not_nothingOpen_iff b).symm
    refine ⟨fun hcalm => ?_, fun hdevice hparked ho => ?_, fun hdevice hparked ho => ?_⟩
    · have hlive : b.device ≠ .failed := live_of_calm hcalm
      rw [hexec hlive, hlook hlive, settle_of_calm hcalm,
        lookEngine_of_none_posted hlive hbase hscan hexecuting ⟨herrors, hbytes⟩]
      exact congrArg _ (conclude_of_calm hcalm)
    · have hlive : b.device ≠ .failed := by rw [hdevice]; decide
      have hsettled : ∀ u : State, u.engine.parked = [] → ¬NothingOpen u → settle u = u := fun u hu hn => by
        unfold settle; rw [settleDrain_of_none hu, settleStopping_of_not_ended (.inr hn)]
      have hsc : settle scanned = scanned := hsettled scanned hparked (hopen.1 ho)
      rw [hexec hlive, hlook hlive, hsettled b hparked (hopen.1 ho),
        lookEngine_of_none_posted hlive hbase hscan hexecuting ⟨herrors, hbytes⟩]
      exact congrArg _ ((conclude_of_settled (s := scanned) hlive (by rw [hsc]; exact hlive)).trans hsc)
    · have hlive : b.device ≠ .failed := by rw [hdevice]; decide
      have hsettle : settle b = { b with device := .ready } := by
        unfold settle; rw [settleDrain_of_none hparked, settleStopping_of_ended hdevice (not_not.1 fun hc => ho (hopen.2 hc))]
      rw [hexec hlive, hlook hlive, hsettle]
      generalize ht : ({ b with device := .ready } : State) = t
      have hready : t.device = .ready := by subst ht; rfl
      rw [lookEngine_of_none_posted (by rw [hready]; decide) (by subst ht; exact hbase) (by subst ht; exact hscan)
        (by subst ht; exact hexecuting) (by subst ht; exact ⟨herrors, hbytes⟩)]
      subst ht
      exact congrArg _ (conclude_of_calm (calm_of_parked_nil (by simp) (by simp) hparked))

end Sys2Proof.Machine
end

section
/-! PROOFS. A LOOK at the order engine and at the report writer: the visit of a slot, the scan, the order a slot holds,
the retry pass (R164, R179, R180). -/

namespace Sys2Proof.Machine

open Sys2Proof

/-! ## Bus reads and the layout of a slot (11.1, 11.3) -/

theorem length_busRead (a : Addr) (n : Nat) (s : State) : (busRead a n s).length = n := by simp [busRead]

theorem getElem?_busRead {a : Addr} {n i : Nat} {s : State} (h : i < n) :
    (busRead a n s)[i]? = some (Memory.read s.mem (offsetAddr a i).toNat) := by
  simp [busRead, h]

theorem busReadFails_one_iff (a : Addr) (s : State) : busReadFails a 1 s = true ↔ a.toNat ∈ s.readErrors := by
  simp [busReadFails, offsetAddr_zero]

theorem leAt_one (bytes : List Byte) (pos : Nat) : leAt bytes pos 1 = (bytes.getD pos 0).toNat := rfl

theorem toNat_append_byte {w : Nat} (x : BitVec w) (y : Byte) : (x ++ y).toNat = x.toNat * 256 + y.toNat := by
  rw [BitVec.toNat_append, ← Nat.shiftLeft_add_eq_or_of_lt y.isLt, Nat.shiftLeft_eq]

theorem ofNat_leAt_two (bytes : List Byte) (pos : Nat) :
    BitVec.ofNat 16 (leAt bytes pos 2) = bytes.getD (pos + 1) 0 ++ bytes.getD pos 0 := by
  apply BitVec.eq_of_toNat_eq
  have hhigh := (bytes.getD (pos + 1) 0).isLt
  have hlow := (bytes.getD pos 0).isLt
  simp only [BitVec.toNat_ofNat, leAt, toNat_append_byte]
  omega

theorem ofNat_leAt_four (bytes : List Byte) (pos : Nat) :
    BitVec.ofNat 32 (leAt bytes pos 4) =
      bytes.getD (pos + 3) 0 ++ bytes.getD (pos + 2) 0 ++ bytes.getD (pos + 1) 0 ++ bytes.getD pos 0 := by
  apply BitVec.eq_of_toNat_eq
  have h3 := (bytes.getD (pos + 3) 0).isLt
  have h2 := (bytes.getD (pos + 2) 0).isLt
  have h1 := (bytes.getD (pos + 1) 0).isLt
  have h0 := (bytes.getD pos 0).isLt
  simp only [BitVec.toNat_ofNat, leAt, toNat_append_byte, Nat.add_assoc, Nat.reduceAdd]
  omega

theorem slotOrder_of_bad_kind {slot : List Byte} (h : slot.getD 1 0 = 0 ∨ 11 < (slot.getD 1 0).toNat) :
    slotOrder slot = .badKind := by
  have hn : leAt slot 1 1 = 0 ∨ 11 < leAt slot 1 1 := h.imp_left fun h0 => by rw [leAt_one, h0]; rfl
  unfold slotOrder
  split
  case h_12 => rfl
  all_goals omega

/-! ## The visit of a slot (R180) -/

theorem holdsSlot_iff (slot : SlotId) (s : State) : holdsSlot slot s = true ↔
    (∃ r, s.engine.executing = some (slot, r)) ∨ ∃ p ∈ s.engine.parked, p.slot = slot := by
  cases he : s.engine.executing with
  | none => simp [holdsSlot, he]
  | some x => obtain ⟨n, r⟩ := x; simp [holdsSlot, he]

theorem visitSlot_of_held {slot : SlotId} {s : State} (h : holdsSlot slot s = true) :
    visitSlot slot s = { s with engine := { s.engine with scan := some slot } } := if_pos h

section
variable {slot : SlotId} {s : State} (hheld : holdsSlot slot s = false)
include hheld

theorem visitSlot_of_unheld : visitSlot slot s =
    if busReadFails (slotAddr slot s) 1 s then
      exchangeRead (slotOffset slot) { s with engine := { s.engine with scan := some slot } }
    else if busRead (slotAddr slot s) 1 s = [1] then
      if busReadFails (slotAddr slot s) 64 s then
        exchangeRead (slotOffset slot) { s with engine := { s.engine with scan := some slot } }
      else takeOrder slot (slotOrder (busRead (slotAddr slot s) 64 s)) { s with engine := { s.engine with scan := some slot } }
    else { s with engine := { s.engine with scan := some slot } } :=
  if_neg (by rw [Bool.not_eq_true]; exact hheld)

theorem visitSlot_of_unreadable (herror : (slotAddr slot s).toNat ∈ s.readErrors) :
    visitSlot slot s = exchangeRead (slotOffset slot) { s with engine := { s.engine with scan := some slot } } := by
  rw [visitSlot_of_unheld hheld, if_pos ((busReadFails_one_iff _ _).2 herror)]

theorem visitSlot_of_not_posted (hread : (slotAddr slot s).toNat ∉ s.readErrors) (hstate : busRead (slotAddr slot s) 1 s ≠ [1]) :
    visitSlot slot s = { s with engine := { s.engine with scan := some slot } } := by
  rw [visitSlot_of_unheld hheld, if_neg (fun h => hread ((busReadFails_one_iff _ _).1 h)), if_neg hstate]

theorem visitSlot_of_posted (hread : ∀ i, i < 64 → (offsetAddr (slotAddr slot s) i).toNat ∉ s.readErrors)
    (hstate : busRead (slotAddr slot s) 1 s = [1]) :
    visitSlot slot s = takeOrder slot (slotOrder (busRead (slotAddr slot s) 64 s))
      { s with engine := { s.engine with scan := some slot } } := by
  have hfirst : (slotAddr slot s).toNat ∉ s.readErrors := by
    have h0 := hread 0 (by omega)
    rwa [offsetAddr_zero] at h0
  have hwhole : busReadFails (slotAddr slot s) 64 s ≠ true := fun h => by
    obtain ⟨i, hi, herror⟩ := (busReadFails_iff _ _ _).1 h
    exact hread i hi herror
  rw [visitSlot_of_unheld hheld, if_neg (fun h => hfirst ((busReadFails_one_iff _ _).1 h)), if_pos hstate, if_neg hwhole]

theorem visitSlot_of_partly_unreadable (hread : (slotAddr slot s).toNat ∉ s.readErrors)
    (hstate : busRead (slotAddr slot s) 1 s = [1])
    (herror : ∃ i, i < 64 ∧ (offsetAddr (slotAddr slot s) i).toNat ∈ s.readErrors) :
    visitSlot slot s = exchangeRead (slotOffset slot) { s with engine := { s.engine with scan := some slot } } := by
  rw [visitSlot_of_unheld hheld, if_neg (fun h => hread ((busReadFails_one_iff _ _).1 h)), if_pos hstate,
    if_pos ((busReadFails_iff _ _ _).2 herror)]

end

/-! ## The scan (R179) -/

section
variable {s : State}

theorem visitSlots_cons_of_going (slot : SlotId) (rest : List SlotId)
    (h : ¬(s.device = .failed ∨ s.engine.executing ≠ none)) :
    visitSlots (slot :: rest) s = visitSlots rest (visitSlot slot s) := by
  change visitSlots rest (if scanStops s then s else visitSlot slot s) = _
  rw [if_neg fun hc => h ((scanStops_iff s).1 hc)]

theorem visitSlots_of_stopped (h : s.device = .failed ∨ s.engine.executing ≠ none) :
    ∀ slots : List SlotId, visitSlots slots s = s
  | [] => rfl
  | slot :: rest => by
    change visitSlots rest (if scanStops s then s else visitSlot slot s) = _
    rw [if_pos ((scanStops_iff s).2 h)]
    exact visitSlots_of_stopped h rest

end

section
variable {slot : SlotId} {s t : State} (ht : visitSlots (allSlots.filter fun n => slot < n) s = t)
include ht

theorem continueScan_of_stopped (h : t.device = .failed ∨ t.engine.executing ≠ none) : continueScan slot s = t := by
  subst ht
  exact if_pos ((scanStops_iff _).2 h)

theorem continueScan_of_going (h : ¬(t.device = .failed ∨ t.engine.executing ≠ none)) :
    continueScan slot s = if t.engine.lookAgain then startScan t else endScan t := by
  subst ht
  exact if_neg fun hc => h ((scanStops_iff _).1 hc)

end

/-! ## The retry pass (R164) -/

theorem lookWriter_of_head {s : State} {r : Record} {rest : List Record} (hlive : s.device ≠ .failed) (hbase : s.base ≠ 0)
    (hheld : s.writer.held = r :: rest) : ∃ n, lookWriter s =
      match readRows s (rowsFrom s.writer.rowCursor r.bodies.length) with
      | .blocked _ => s
      | .busError row => raise (writerCause .rowWrite (some row.val)) s
      | .free => retryPass n (retried r rest s) := by
  refine ⟨s.writer.held.length + 1, ?_⟩
  unfold lookWriter
  rw [if_neg (by rw [Bool.or_eq_true, beq_iff_eq, decide_eq_true_iff]; exact not_or.2 ⟨hlive, hbase⟩), retryPass, hheld]
  exact if_neg hlive

theorem lookWriter_of_blocked {s : State} {r : Record} {rest : List Record} {row : RowId} (hlive : s.device ≠ .failed)
    (hbase : s.base ≠ 0) (hheld : s.writer.held = r :: rest)
    (hrows : readRows s (rowsFrom s.writer.rowCursor r.bodies.length) = .blocked row) : lookWriter s = s := by
  obtain ⟨n, h⟩ := lookWriter_of_head hlive hbase hheld
  rw [h, hrows]

theorem lookWriter_of_busError {s : State} {r : Record} {rest : List Record} {row : RowId} (hlive : s.device ≠ .failed)
    (hbase : s.base ≠ 0) (hheld : s.writer.held = r :: rest)
    (hrows : readRows s (rowsFrom s.writer.rowCursor r.bodies.length) = .busError row) :
    lookWriter s = raise (writerCause .rowWrite (some row.val)) s := by
  obtain ⟨n, h⟩ := lookWriter_of_head hlive hbase hheld
  rw [h, hrows]

/-- The one record held is written without a cause, and the pass ends. -/
theorem lookWriter_of_last {s : State} {r : Record} {rest : List Record} (hlive : s.device ≠ .failed) (hbase : s.base ≠ 0)
    (hheld : s.writer.held = r :: rest) (hrows : readRows s (rowsFrom s.writer.rowCursor r.bodies.length) = .free)
    (hrest : rest = []) (hcauses : (writeRecord r { s with writer := { s.writer with held := rest } }).2.2 = []) :
    lookWriter s = (writeRecord r { s with writer := { s.writer with held := rest } }).1 := by
  have hretried : retried r rest s = (writeRecord r { s with writer := { s.writer with held := rest } }).1 := by
    change (writeRecord r { s with writer := { s.writer with held := rest } }).2.2.foldl _ _ = _
    rw [hcauses]; rfl
  have hnone : (writeRecord r { s with writer := { s.writer with held := rest } }).1.writer.held = [] := by
    rw [(writeRecord_causes r _).1, hrest]
  rw [lookWriter_free hlive hbase hheld hrows, hretried, lookWriter_of_none_held hnone]

theorem length_rowsFrom (cursor : RowId) (n : Nat) : (rowsFrom cursor n).length = n := by simp [rowsFrom]

theorem getElem?_rowsFrom {cursor : RowId} {n i : Nat} (h : i < n) :
    (rowsFrom cursor n)[i]?.map Fin.val = some ((cursor.val + i) % 512) := by
  simp [rowsFrom, h, Fin.val_add]

section
variable {s : State} {row : RowId} {rows : List RowId}

theorem readRows_cons_of_unreadable (h : (rowAddr row s).toNat ∈ s.readErrors) :
    readRows s (row :: rows) = .busError row := by
  rw [readRows, if_pos ((busReadFails_one_iff _ _).2 h)]

theorem readRows_cons_of_free (hread : (rowAddr row s).toNat ∉ s.readErrors) (hfree : busRead (rowAddr row s) 1 s = [0]) :
    readRows s (row :: rows) = readRows s rows := by
  rw [readRows, if_neg (fun h => hread ((busReadFails_one_iff _ _).1 h)), if_pos hfree]

theorem readRows_cons_of_written (hread : (rowAddr row s).toNat ∉ s.readErrors)
    (hwritten : busRead (rowAddr row s) 1 s ≠ [0]) :
    readRows s (row :: rows) = match readRows s rows with
      | .busError bad => .busError bad
      | .free => .blocked row
      | .blocked _ => .blocked row := by
  rw [readRows]
  exact (if_neg fun h => hread ((busReadFails_one_iff _ _).1 h)).trans (if_neg hwritten)

/-- The first bus error ends the reading, whatever the rows before it read. -/
theorem readRows_of_unreadable {after : List RowId} (h : (rowAddr row s).toNat ∈ s.readErrors) :
    ∀ {before : List RowId}, (∀ x ∈ before, (rowAddr x s).toNat ∉ s.readErrors) →
      readRows s (before ++ row :: after) = .busError row
  | [], _ => readRows_cons_of_unreadable h
  | x :: before, hbefore => by
    obtain ⟨hx, hrest⟩ := List.forall_mem_cons.1 hbefore
    have ih := readRows_of_unreadable (after := after) h hrest
    by_cases hfree : busRead (rowAddr x s) 1 s = [0]
    · rw [List.cons_append, readRows_cons_of_free hx hfree, ih]
    · rw [List.cons_append, readRows_cons_of_written hx hfree, ih]

theorem readRows_ne_busError : ∀ {rows : List RowId}, (∀ x ∈ rows, (rowAddr x s).toNat ∉ s.readErrors) →
    ∀ bad, readRows s rows ≠ .busError bad
  | [], _, _ => nofun
  | x :: rest, h, bad => by
    obtain ⟨hx, hrest⟩ := List.forall_mem_cons.1 h
    have ih := readRows_ne_busError hrest
    by_cases hfree : busRead (rowAddr x s) 1 s = [0]
    · rw [readRows_cons_of_free hx hfree]; exact ih bad
    · rw [readRows_cons_of_written hx hfree]
      cases hr : readRows s rest with
      | busError y => exact absurd hr (ih y)
      | free => nofun
      | blocked y => nofun

theorem readRows_append_of_free : ∀ {before : List RowId}, (∀ x ∈ before, (rowAddr x s).toNat ∉ s.readErrors) →
    (∀ x ∈ before, busRead (rowAddr x s) 1 s = [0]) → readRows s (before ++ rows) = readRows s rows
  | [], _, _ => rfl
  | x :: before, hread, hfree => by
    obtain ⟨hx, hrest⟩ := List.forall_mem_cons.1 hread
    obtain ⟨fx, frest⟩ := List.forall_mem_cons.1 hfree
    rw [List.cons_append, readRows_cons_of_free hx fx, readRows_append_of_free hrest frest]

theorem readRows_of_written {before after : List RowId} (hread : ∀ x ∈ before ++ row :: after, (rowAddr x s).toNat ∉ s.readErrors)
    (hfree : ∀ x ∈ before, busRead (rowAddr x s) 1 s = [0]) (hwritten : busRead (rowAddr row s) 1 s ≠ [0]) :
    readRows s (before ++ row :: after) = .blocked row := by
  obtain ⟨hbefore, hbehind⟩ := List.forall_mem_append.1 hread
  obtain ⟨hrow, hafter⟩ := List.forall_mem_cons.1 hbehind
  rw [readRows_append_of_free hbefore hfree, readRows_cons_of_written hrow hwritten]
  cases hr : readRows s after with
  | busError bad => exact absurd hr (readRows_ne_busError hafter bad)
  | free => rfl
  | blocked _ => rfl

theorem readRows_of_free (hread : ∀ x ∈ rows, (rowAddr x s).toNat ∉ s.readErrors)
    (hfree : ∀ x ∈ rows, busRead (rowAddr x s) 1 s = [0]) : readRows s rows = .free := by
  rw [← List.append_nil rows, readRows_append_of_free hread hfree]
  rfl

end

theorem startScan_eq (s : State) : startScan s =
    endScan (visitSlots allSlots { s with engine := { s.engine with scan := some 0, lookAgain := false } }) := rfl

/-- Settles O22: the equations of the visit, the scan, the slot's layout, the retry pass and the reading of rows. -/
theorem lookAtBoardAndLog : Obligations.LookAtBoardAndLog := by
  unfold Obligations.LookAtBoardAndLog
  refine ⟨fun s => ⟨fun _ => rfl, fun _ => rfl, fun _ => rfl,
      fun a n => ⟨rfl, length_busRead a n s, fun i hi => getElem?_busRead hi⟩⟩,
    fun _ _ _ => ⟨rfl, rfl⟩,
    fun s hlive => ⟨lookEngine_of_no_base, lookEngine_of_scanning hlive, lookEngine_of_no_scan hlive,
      fun slot => ⟨visitSlot_of_held, visitSlot_of_not_posted, visitSlot_of_posted, visitSlot_of_partly_unreadable,
        visitSlot_of_unreadable⟩⟩,
    ?slots, fun s hlive => ⟨fun h => h.elim lookWriter_of_no_base lookWriter_of_none_held,
      fun r rest row hbase hheld hrows => lookWriter_of_blocked hlive hbase hheld hrows,
      fun r rest row hbase hheld hrows => lookWriter_of_busError hlive hbase hheld hrows,
      fun r rest hbase hheld hrows => ⟨lookWriter_free hlive hbase hheld hrows,
        lookWriter_of_last hlive hbase hheld hrows⟩⟩,
    fun cursor n i hi => ⟨getElem?_rowsFrom hi, length_rowsFrom cursor n⟩, fun s rows => ⟨?unreadable, ?written, ?free⟩, ?scan⟩
  case slots =>
    intro slot byte address
    have hkind : ∀ {n : Byte}, byte 1 = n → leAt slot 1 1 = n.toNat := congrArg BitVec.toNat
    refine ⟨fun h => ?_, fun h => ?programs, fun h => ?_, fun h => ?_, fun h => ?_, fun h => ?_, fun h => ?_,
      fun h => ?abandon, fun h => ?shot, fun h => ?_, fun h => ?_, slotOrder_of_bad_kind⟩
    all_goals (unfold slotOrder; rw [hkind h])
    case programs => exact congrArg (Order.loadPrograms · address) (ofNat_leAt_two slot 4)
    case abandon => exact congrArg Order.abandonPassage (ofNat_leAt_two slot 4)
    case shot => exact congrArg (Order.testShot (byte 4) (byte 5)) (ofNat_leAt_four slot 8)
    all_goals rfl
  case unreadable => rintro before row after rfl hbefore hrow; exact readRows_of_unreadable hrow hbefore
  case written => rintro before row after rfl hread hfree hwritten; exact readRows_of_written hread hfree hwritten
  case free => exact readRows_of_free
  case scan =>
    refine fun slot rest s => ⟨rfl, rfl, visitSlots_of_stopped, visitSlots_cons_of_going slot rest, endScan_of_stopped,
      endScan_of_not_stopped, ⟨continueScan_of_stopped rfl, fun hgoing hagain => ?_, fun hgoing hagain => ?_⟩, holdsSlot_iff slot s⟩
    · exact (continueScan_of_going rfl hgoing).trans (if_neg (by rw [hagain]; decide))
    · exact (continueScan_of_going rfl hgoing).trans ((if_pos hagain).trans (startScan_eq _))

end Sys2Proof.Machine
end

section
/-! PROOFS. The wheel filters, the track's timers and the roof curtain (01, R1-R4, R10, R13-R18). -/

namespace Sys2Proof.Machine

open Sys2Proof

/-! ## Updates of one filter, and of the same track twice -/

theorem modTrack_modTrack (t : TrackId) (f g : TrackUnit → TrackUnit) (s : State) :
    modTrack t f (modTrack t g s) = modTrack t (fun u => f (g u)) s := by
  simp [modTrack]

theorem modCurtain_modCurtain (t : TrackId) (f g : Curtain → Curtain) (s : State) :
    modCurtain t f (modCurtain t g s) = modCurtain t (fun c => f (g c)) s :=
  modTrack_modTrack _ _ _ _

@[simp] theorem curtain_modCurtain (t : TrackId) (f : Curtain → Curtain) (s : State) :
    (modCurtain t f s).tracks[t].curtain = f s.tracks[t].curtain := by
  simp [modCurtain]

@[simp] theorem servedId_modCurtain (t : TrackId) (f : Curtain → Curtain) (s : State) :
    servedId t (modCurtain t f s) = servedId t s := by
  simp [servedId, modCurtain]

/-- An update of a filter is what it makes of that filter. -/
theorem TrackUnit.modFilter_congr {f g : WheelFilter → WheelFilter} {u : TrackUnit} {w : Sensor}
    (h : f (u.filter w) = g (u.filter w)) : u.modFilter f w = u.modFilter g w := by
  cases w with
  | uOuter => exact congrArg (fun x => { u with uOuter := x }) h
  | uInner => exact congrArg (fun x => { u with uInner := x }) h
  | dInner => exact congrArg (fun x => { u with dInner := x }) h
  | dOuter => exact congrArg (fun x => { u with dOuter := x }) h

theorem TrackUnit.modFilter_modFilter (f g : WheelFilter → WheelFilter) (u : TrackUnit) (w : Sensor) :
    (u.modFilter g w).modFilter f w = u.modFilter (fun x => f (g x)) w := by
  cases w <;> rfl

theorem TrackUnit.modFilter_state (f : WheelFilter → WheelFilter) (u : TrackUnit) (w : Sensor) :
    (u.modFilter f w).state = u.state := by
  cases w <;> rfl

theorem TrackUnit.modFilter_bounceFrom (f : WheelFilter → WheelFilter) (u : TrackUnit) (w : Sensor) (now : Time) :
    (u.modFilter f w).bounceFrom now = u.bounceFrom now := by
  cases w <;> rfl

theorem modFilter_congr {t : TrackId} {w : Sensor} {f g : WheelFilter → WheelFilter} {s : State}
    (h : f (s.tracks[t].filter w) = g (s.tracks[t].filter w)) : modFilter t w f s = modFilter t w g s :=
  modTrack_congr t (TrackUnit.modFilter_congr h)

/-! ## Edges (R4) -/

theorem takesInputs_iff_listens (x : TrackState) :
    x.takesInputs = true ↔ x = .watching ∨ x = .ignoring ∨ x = .closing := by
  cases x <;> simp [TrackState.takesInputs]

/-- An edge on a track that takes its inputs: the line's level, then the filter's own rule. -/
theorem wheelEdge_of_listening {t : TrackId} {w : Sensor} {level : Bool} {edge : Option Time → WheelFilter → WheelFilter}
    {s : State} (h : s.tracks[t].state.takesInputs = true) :
    wheelEdge t w level edge s =
      modFilter t w (fun f => edge (some (plusUs s.gantryTime s.tracks[t].plan.bounce)) { f with asserted := level }) s := by
  apply modTrack_congr
  dsimp only
  rw [TrackUnit.modFilter_state, if_pos h, TrackUnit.modFilter_bounceFrom, TrackUnit.modFilter_modFilter]
  rfl

theorem wheelEdge_of_not_listening {t : TrackId} {w : Sensor} {level : Bool}
    {edge : Option Time → WheelFilter → WheelFilter} {s : State} (h : ¬s.tracks[t].state.takesInputs = true) :
    wheelEdge t w level edge s = modFilter t w (fun f => { f with asserted := level }) s := by
  apply modTrack_congr
  dsimp only
  rw [TrackUnit.modFilter_state, if_neg h]

/-- An edge that the filter's own rule does not take sets the level alone. -/
theorem wheelEdge_of_untaken {t : TrackId} {w : Sensor} {level : Bool} {edge : Option Time → WheelFilter → WheelFilter}
    {s : State} (h : ¬s.tracks[t].state.takesInputs = true ∨
      ∀ bounce, edge bounce { s.tracks[t].filter w with asserted := level } = { s.tracks[t].filter w with asserted := level }) :
    wheelEdge t w level edge s = modFilter t w (fun f => { f with asserted := level }) s := by
  by_cases hl : s.tracks[t].state.takesInputs = true
  · rw [wheelEdge_of_listening hl]
    exact modFilter_congr ((h.resolve_left (not_not.2 hl)) _)
  · exact wheelEdge_of_not_listening hl

theorem WheelFilter.assertEdge_of_quiet {now : Time} {bounce : Option Time} {f : WheelFilter} (h : f.state = .quiet) :
    f.assertEdge now bounce = { f with state := .confirming, edgeTime := now, bounce := bounce } := by
  unfold assertEdge; rw [h]

theorem WheelFilter.assertEdge_of_not_quiet {now : Time} {bounce : Option Time} {f : WheelFilter} (h : f.state ≠ .quiet) :
    f.assertEdge now bounce = f := by
  unfold assertEdge
  split
  · next hq => exact absurd hq h
  · rfl
  · rfl
  · rfl

theorem WheelFilter.releaseEdge_of_confirming {bounce : Option Time} {f : WheelFilter} (h : f.state = .confirming) :
    f.releaseEdge bounce = { f with state := .quiet, bounce := none } := by
  unfold releaseEdge; rw [h]

theorem WheelFilter.releaseEdge_of_on {bounce : Option Time} {f : WheelFilter} (h : f.state = .on) :
    f.releaseEdge bounce = { f with state := .recovering, bounce := bounce } := by
  unfold releaseEdge; rw [h]

theorem WheelFilter.releaseEdge_of_released {bounce : Option Time} {f : WheelFilter}
    (h : f.state = .quiet ∨ f.state = .recovering) : f.releaseEdge bounce = f := by
  rcases h with h | h <;> (unfold releaseEdge; rw [h])

theorem exec_assertingEdge (m : Moment) (t : TrackId) (w : Sensor) (s : State) :
    exec (.assertingEdge m t w) s =
      .next (wheelEdge t w true (WheelFilter.assertEdge (taken m s).gantryTime) (taken m s)) :=
  execAssertingEdge.eq_1 m t w s

theorem exec_releasingEdge (m : Moment) (t : TrackId) (w : Sensor) (s : State) :
    exec (.releasingEdge m t w) s = .next (wheelEdge t w false WheelFilter.releaseEdge (taken m s)) :=
  execReleasingEdge.eq_1 m t w s

/-- Settles O23: whether the track takes its inputs and the filter's state decide. -/
theorem wheelEdges : Obligations.WheelEdges := by
  unfold Obligations.WheelEdges
  refine ⟨fun t f s => ⟨rfl, rfl, rfl, rfl⟩, fun u => ⟨rfl, rfl, rfl, rfl⟩, fun m t w s => ?asserting, fun m t w s => ?releasing⟩
  case asserting =>
    intro b u listens
    have hlistens : u.state.takesInputs = true ↔ listens := takesInputs_iff_listens _
    rw [exec_assertingEdge]
    refine ⟨fun hl hquiet => ?_, fun h => ?_⟩
    · rw [wheelEdge_of_listening (hlistens.2 hl)]
      exact congrArg _ (modFilter_congr (WheelFilter.assertEdge_of_quiet hquiet))
    · exact congrArg _ (wheelEdge_of_untaken (h.imp (fun hn hc => hn (hlistens.1 hc)) fun hn bounce =>
        WheelFilter.assertEdge_of_not_quiet hn))
  case releasing =>
    intro b u listens
    have hlistens : u.state.takesInputs = true ↔ listens := takesInputs_iff_listens _
    rw [exec_releasingEdge]
    refine ⟨fun hl hconfirming => ?_, fun hl hon => ?_, fun h => ?_⟩
    · rw [wheelEdge_of_listening (hlistens.2 hl)]
      exact congrArg _ (modFilter_congr (WheelFilter.releaseEdge_of_confirming hconfirming))
    · rw [wheelEdge_of_listening (hlistens.2 hl)]
      exact congrArg _ (modFilter_congr (WheelFilter.releaseEdge_of_on hon))
    · exact congrArg _ (wheelEdge_of_untaken (h.imp (fun hn hc => hn (hlistens.1 hc)) fun hn bounce =>
        WheelFilter.releaseEdge_of_released hn))

/-! ## The bounce timer (R4) -/

section
variable {t : TrackId} {w : Sensor} {s : State}

theorem bounceExpiry_of_not_expired (h : expired (s.tracks[t].filter w).bounce s.gantryTime = false) :
    bounceExpiry t w s = s := if_neg (by rw [h]; decide)

theorem bounceExpiry_of_recovering (h : expired (s.tracks[t].filter w).bounce s.gantryTime = true)
    (hstate : (s.tracks[t].filter w).state = .recovering) :
    bounceExpiry t w s =
      modFilter t w (fun f => { f with state := if f.asserted then .on else .quiet, bounce := none }) s := by
  unfold bounceExpiry; dsimp only; rw [if_pos h, hstate]

theorem bounceExpiry_of_confirming (h : expired (s.tracks[t].filter w).bounce s.gantryTime = true)
    (hstate : (s.tracks[t].filter w).state = .confirming) :
    bounceExpiry t w s = acceptPulse t w (s.tracks[t].filter w).edgeTime
      (modFilter t w (fun f => { f with state := .on, bounce := none }) s) := by
  unfold bounceExpiry; dsimp only; rw [if_pos h, hstate]

end

theorem exec_bounceTimerExpiry (m : Moment) (t : TrackId) (w : Sensor) (s : State) :
    exec (.bounceTimerExpiry m t w) s = event m (bounceExpiry t w) s := execBounceTimerExpiry.eq_1 m t w s

/-- Settles O24: the filter's state and whether its bounce time has come decide. -/
theorem bounceExpiryObligation : Obligations.BounceExpiry := by
  unfold Obligations.BounceExpiry
  intro m t w s b f c hlive
  rw [exec_bounceTimerExpiry, event_of_live hlive]
  refine ⟨fun h hstate => ?_, fun h hstate => ?_, fun h => ?_⟩
  · rw [bounceExpiry_of_recovering h hstate]
    exact congrArg (fun u => Host.Outcome.next (conclude u)) (modFilter_congr rfl)
  · rw [bounceExpiry_of_confirming h hstate]
  · rw [bounceExpiry_of_not_expired h]

/-! ## The track's timers (R1, R3, R10) -/

theorem exec_settleTimerExpiry (m : Moment) (t : TrackId) (s : State) :
    exec (.settleTimerExpiry m t) s = plainEvent m (fun s =>
      if s.tracks[t].state = .settling ∧ expired s.tracks[t].settleTimer s.gantryTime = true then enterWatching t s
      else s) s := execSettleTimerExpiry.eq_1 m t s

theorem exec_ignoreTimerExpiry (m : Moment) (t : TrackId) (s : State) :
    exec (.ignoreTimerExpiry m t) s = plainEvent m (fun s =>
      if s.tracks[t].state = .ignoring ∧ expired s.tracks[t].ignoreTimer s.gantryTime = true then
        modTrack t (fun u => { u with state := .watching, ignoreTimer := none, served := none, uQueue := [], dQueue := [] }) s
      else s) s := execIgnoreTimerExpiry.eq_1 m t s

theorem exec_axleEntryExpiry (m : Moment) (t : TrackId) (p : Pair) (s : State) :
    exec (.axleEntryExpiry m t p) s = event m (axleExpiry t p) s := execAxleEntryExpiry.eq_1 m t p s

theorem not_and_of_ne_or {α : Type} {x y : α} {b : Bool} (h : x ≠ y ∨ b = false) : ¬(x = y ∧ b = true) :=
  fun hc => h.elim (fun hn => hn hc.1) fun hb => by rw [hb] at hc; exact Bool.noConfusion hc.2

section
variable {t : TrackId} {p : Pair} {s : State}

theorem servedId_setQueue (l : List Time) : servedId t (setQueue t p l s) = s.tracks[t].served.map Served.id := by
  cases p <;> simp [servedId, setQueue, TrackUnit.setQueue]

theorem unpairedPulse_of_served {id : PassageId} (h : servedId t s = some id) :
    unpairedPulse t s = unpairedNotice id (raise (trackCause .wheelUnpaired t (some id) none) s) := by
  unfold unpairedPulse; rw [h]

theorem axleExpiry_of_empty (h : s.tracks[t].queue p = []) : axleExpiry t p s = s := by
  unfold axleExpiry; rw [h]

theorem axleExpiry_of_entry {first : Time} {rest : List Time} (h : s.tracks[t].queue p = first :: rest) :
    axleExpiry t p s =
      if reached (plusUs first (pairWindow t p s)) s.gantryTime then unpairedPulse t (setQueue t p rest s) else s := by
  unfold axleExpiry; rw [h]

end

/-- Settles O27: each timer by whether it has come, the entry at a queue's head by its pair window. -/
theorem trackTimers : Obligations.TrackTimers := by
  unfold Obligations.TrackTimers
  refine ⟨fun m t s => ?settle, fun m t s => ?ignore, fun m t p s => ?entry⟩
  case settle =>
    intro b hlive
    rw [exec_settleTimerExpiry, plainEvent_of_live hlive]
    refine ⟨fun hstate hexpired => ?_, fun h => ?_⟩
    · exact congrArg _ ((if_pos ⟨hstate, hexpired⟩).trans (modTrack_congr t rfl))
    · exact congrArg _ (if_neg (not_and_of_ne_or h))
  case ignore =>
    intro b hlive
    rw [exec_ignoreTimerExpiry, plainEvent_of_live hlive]
    exact ⟨fun hstate hexpired => congrArg _ (if_pos ⟨hstate, hexpired⟩), fun h => congrArg _ (if_neg (not_and_of_ne_or h))⟩
  case entry =>
    intro b mm hlive
    have hwindow : pairWindow t p b = mm * 1000000 / 1389 := by cases p <;> rfl
    rw [exec_axleEntryExpiry, event_of_live hlive]
    refine ⟨fun first rest v hqueue hserved hreached => ?_, fun first rest hqueue hreached => ?_, fun hqueue => ?_⟩
    · have hid : servedId t (setQueue t p rest b) = some v.id := by rw [servedId_setQueue, hserved]; rfl
      rw [axleExpiry_of_entry hqueue, hwindow, if_pos hreached, unpairedPulse_of_served hid]
    · rw [axleExpiry_of_entry hqueue, hwindow, if_neg (by rw [hreached]; decide)]
    · rw [axleExpiry_of_empty hqueue]

/-! ## The object detector (R14, R15) -/

section
variable {plan : TrackPlan} {now : Time} {top : Nat} {c : Curtain}

theorem Curtain.litInClear_of_first (h : c.lit = 0) : c.litInClear plan now top =
    if plan.settleScans ≤ 1 then { c with
      enter := some now, topBeam := top, lit := 1, detector := .object, dark := 0
      stuckTimer := some (plusUs now (secondsUs plan.stuckS)) }
    else { c with enter := some now, topBeam := top, lit := 1 } := by
  simp only [litInClear, if_pos h]; rfl

theorem Curtain.litInClear_of_later (h : c.lit ≠ 0) : c.litInClear plan now top =
    if plan.settleScans ≤ c.lit + 1 then { c with
      lit := c.lit + 1, topBeam := max c.topBeam top, detector := .object, dark := 0
      stuckTimer := c.enter.map fun t => plusUs t (secondsUs plan.stuckS) }
    else { c with lit := c.lit + 1, topBeam := max c.topBeam top } := by
  simp only [litInClear, if_neg h]

theorem Curtain.darkInObject_of_first (h : c.dark = 0) : c.darkInObject now = { c with leave := some now, dark := 1 } :=
  if_pos h

theorem Curtain.darkInObject_of_later (h : c.dark ≠ 0) : c.darkInObject now = { c with dark := c.dark + 1 } := if_neg h

theorem Curtain.leftObject_of_short (h : c.dark < plan.settleScans) : c.leftObject plan = none :=
  if_neg (Nat.not_le.2 h)

theorem Curtain.leftObject_of_settled {e l : Time} (h : plan.settleScans ≤ c.dark) (he : c.enter = some e)
    (hl : c.leave = some l) : c.leftObject plan = some (e, l) := by
  unfold leftObject; rw [if_pos h, he, hl]

end

section
variable {t : TrackId} {lit : List Nat} {s : State} {d : Curtain}

theorem detectScan_of_dark_clear (hclear : s.tracks[t].curtain.detector = .clear) (hlit : lit = [])
    (hd : { s.tracks[t].curtain with lit := 0, enter := none } = d) :
    detectScan t lit s = modCurtain t (fun _ => d) s := by
  unfold detectScan; dsimp only; rw [hclear, hlit]
  exact modCurtain_congr t hd

theorem detectScan_of_lit_clear (hclear : s.tracks[t].curtain.detector = .clear) (hlit : lit ≠ [])
    (hd : s.tracks[t].curtain.litInClear s.tracks[t].plan s.gantryTime (lit.getLastD 0) = d) :
    detectScan t lit s = modCurtain t (fun _ => d) s := by
  unfold detectScan; dsimp only; rw [hclear]
  exact modCurtain_congr t ((if_neg (by rw [List.isEmpty_iff]; exact hlit)).trans hd)

theorem detectScan_of_lit_object (hobject : s.tracks[t].curtain.detector = .object) (hlit : lit ≠ [])
    (hd : { s.tracks[t].curtain with
      dark := 0, leave := none, topBeam := max s.tracks[t].curtain.topBeam (lit.getLastD 0) } = d) :
    detectScan t lit s = modCurtain t (fun _ => d) s := by
  unfold detectScan; dsimp only; rw [hobject]
  exact (if_neg (by rw [List.isEmpty_iff]; exact hlit)).trans (modCurtain_congr t hd)

theorem detectScan_of_dark_object (hobject : s.tracks[t].curtain.detector = .object) (hlit : lit = [])
    (hd : s.tracks[t].curtain.darkInObject s.gantryTime = d) : detectScan t lit s =
      match d.leftObject s.tracks[t].plan with
      | some (enter, leave) => objectReport t enter leave d.topBeam (modCurtain t (fun _ => d.clear) s)
      | none => modCurtain t (fun _ => d) s := by
  unfold detectScan; dsimp only; rw [hobject, hlit, hd]
  exact if_pos rfl

theorem detectScan_of_staying (hobject : s.tracks[t].curtain.detector = .object) (hlit : lit = [])
    (hd : s.tracks[t].curtain.darkInObject s.gantryTime = d) (hshort : d.dark < s.tracks[t].plan.settleScans) :
    detectScan t lit s = modCurtain t (fun _ => d) s := by
  rw [detectScan_of_dark_object hobject hlit hd, Curtain.leftObject_of_short hshort]

theorem detectScan_of_leaving {e l : Time} (hobject : s.tracks[t].curtain.detector = .object) (hlit : lit = [])
    (hd : s.tracks[t].curtain.darkInObject s.gantryTime = d) (hsettled : s.tracks[t].plan.settleScans ≤ d.dark)
    (he : d.enter = some e) (hl : d.leave = some l) :
    detectScan t lit s = objectReport t e l d.topBeam (modCurtain t (fun _ => d.clear) s) := by
  rw [detectScan_of_dark_object hobject hlit hd, Curtain.leftObject_of_settled hsettled he hl]

end

/-! ## Object reports (R29-R32) -/

/-- The first of an ordered list that satisfies a test. -/
theorem find?_eq_some_iff_first {n : Nat} {test : Fin n → Bool} {k : Fin n} : ∀ {l : List (Fin n)}, l.Pairwise (· < ·) →
    (l.find? test = some k ↔ k ∈ l ∧ test k = true ∧ ∀ j ∈ l, j < k → test j = false)
  | [], _ => by simp
  | x :: rest, h => by
    obtain ⟨hx, hrest⟩ := List.pairwise_cons.1 h
    cases ht : test x with
    | true =>
      rw [List.find?_cons_of_pos ht]
      constructor
      · rintro ⟨⟩
        refine ⟨List.mem_cons_self, ht, fun j hj hlt => ?_⟩
        rcases List.mem_cons.1 hj with rfl | hj
        · exact absurd hlt (lt_irrefl _)
        · exact absurd hlt (lt_asymm (hx j hj))
      · rintro ⟨hk, -, hfirst⟩
        rcases List.mem_cons.1 hk with rfl | hk
        · rfl
        · exact absurd ht (by rw [hfirst x List.mem_cons_self (hx k hk)]; decide)
    | false =>
      rw [List.find?_cons_of_neg (by rw [ht]; decide), find?_eq_some_iff_first hrest]
      constructor
      · rintro ⟨hk, htest, hfirst⟩
        exact ⟨List.mem_cons_of_mem _ hk, htest, List.forall_mem_cons.2 ⟨fun _ => ht, hfirst⟩⟩
      · rintro ⟨hk, htest, hfirst⟩
        refine ⟨(List.mem_cons.1 hk).resolve_left ?_, htest, (List.forall_mem_cons.1 hfirst).2⟩
        rintro rfl
        rw [ht] at htest
        exact Bool.noConfusion htest

theorem find?_allContexts_eq_some_iff {test : ContextId → Bool} {k : ContextId} :
    allContexts.find? test = some k ↔ test k = true ∧ ∀ j : ContextId, j < k → test j = false := by
  rw [find?_eq_some_iff_first (by decide)]
  simp [mem_allContexts]

theorem find?_allContexts_eq_none_iff {test : ContextId → Bool} :
    allContexts.find? test = none ↔ ∀ k : ContextId, test k = false := by
  simp [List.find?_eq_none, mem_allContexts]

/-- The passage in a context takes the object reports of a track (R29). -/
def TakesObjects (t : TrackId) (s : State) (k : ContextId) (p : Passage) : Prop :=
  s.passages[k] = some p ∧ p.track = t ∧ p.state ≠ .finishing

theorem trackContext_test_iff (t : TrackId) (s : State) (k : ContextId) :
    (match s.passages[k] with | none => false | some p => p.track == t && p.isOpen) = true ↔
      ∃ p, TakesObjects t s k p := by
  cases h : s.passages[k] with
  | none => simp [TakesObjects, h]
  | some p => simp [TakesObjects, h, Passage.isOpen_iff]

theorem trackContext_of_none {t : TrackId} {s : State} (h : ∀ k p, ¬TakesObjects t s k p) : trackContext t s = none := by
  refine find?_allContexts_eq_none_iff.2 fun k => Bool.eq_false_iff.2 fun hk => ?_
  obtain ⟨p, hp⟩ := (trackContext_test_iff t s k).1 hk
  exact h k p hp

theorem trackContext_of_first {t : TrackId} {s : State} {k : ContextId} {p : Passage} (h : TakesObjects t s k p)
    (hfirst : ∀ j q, j < k → ¬TakesObjects t s j q) : trackContext t s = some k := by
  refine find?_allContexts_eq_some_iff.2 ⟨(trackContext_test_iff t s k).2 ⟨p, h⟩, fun j hj =>
    Bool.eq_false_iff.2 fun hc => ?_⟩
  obtain ⟨q, hq⟩ := (trackContext_test_iff t s j).1 hc
  exact hfirst j q hj hq

theorem isHead_iff (speed : Nat) (enter leave : Time) (s : State) :
    isHead speed enter leave s = true ↔
      s.headMin ≤ speed * elapsed enter leave / 1000000 ∧ speed * elapsed enter leave / 1000000 ≤ s.headMax := by
  simp only [isHead, within, Bool.and_eq_true, decide_eq_true_eq]
  exact Iff.rfl

section
variable {t : TrackId} {enter leave : Time} {top : Nat} {s : State} {k : ContextId} {p : Passage}

theorem objectReport_of_none (h : trackContext t s = none) : objectReport t enter leave top s = s := by
  unfold objectReport; rw [h]

theorem objectReport_of_measuring (hk : trackContext t s = some k) (hp : s.passages[k] = some p)
    (hstate : p.state = .measuring) : objectReport t enter leave top s =
      if p.sightings.length < 12 then
        setPassage k (some { p with sightings := p.sightings ++ [untimedEntry enter leave top] }) s
      else sightingOverflow k p s := by
  unfold objectReport; rw [hk]; dsimp only; rw [hp]; dsimp only; rw [hstate]; rfl

theorem objectReport_of_running {speed : Nat} (hk : trackContext t s = some k) (hp : s.passages[k] = some p)
    (hstate : p.state = .running) (hspeed : p.estimate = some speed) :
    objectReport t enter leave top s = judgeObject k p speed enter leave top s := by
  unfold objectReport; rw [hk]; dsimp only; rw [hp]; dsimp only; rw [hstate, hspeed]; rfl

end

/-- Settles O29: the detector's counts against the settle scans, then the passage that takes the object. -/
theorem objectDetector : Obligations.ObjectDetector := by
  unfold Obligations.ObjectDetector
  refine ⟨fun t lit s => ?detector, fun t enter leave top s => ?report⟩
  case detector =>
    intro c plan now top set
    refine ⟨fun hc hl => detectScan_of_dark_clear hc hl rfl, fun hc hl h0 hs => ?_, fun hc hl h0 hs => ?_, fun hc hl h0 hs => ?_,
      fun e hc hl h0 hs he => ?_,
      fun ho hl => detectScan_of_lit_object ho hl rfl, fun ho hl h0 hs => ?_, fun ho hl h0 hs => ?_,
      fun e ho hl h0 hs he => ?_, fun e l ho hl h0 hs he hleave => ?_⟩
    · exact detectScan_of_lit_clear hc hl ((Curtain.litInClear_of_first h0).trans (if_neg (Nat.not_le.2 hs)))
    · exact detectScan_of_lit_clear hc hl ((Curtain.litInClear_of_first h0).trans (if_pos hs))
    · exact detectScan_of_lit_clear hc hl ((Curtain.litInClear_of_later h0).trans (if_neg (Nat.not_le.2 hs)))
    · refine detectScan_of_lit_clear hc hl ((Curtain.litInClear_of_later h0).trans ((if_pos hs).trans ?_))
      rw [he]; rfl
    · exact detectScan_of_staying ho hl (Curtain.darkInObject_of_first h0) hs
    · exact detectScan_of_staying ho hl (Curtain.darkInObject_of_later h0) hs
    · have hleft := detectScan_of_leaving ho hl (Curtain.darkInObject_of_first h0) hs he rfl
      exact hleft
    · have hleft := detectScan_of_leaving ho hl (Curtain.darkInObject_of_later h0) hs he hleave
      exact hleft
  case report =>
    intro takes
    refine ⟨fun hnone => objectReport_of_none (trackContext_of_none hnone), fun k p htakes hfirst => ?_⟩
    have hk : trackContext t s = some k := trackContext_of_first htakes hfirst
    obtain ⟨hp, rfl, -⟩ := htakes
    intro set count overflow
    have hover : sightingOverflow k p s = overflow := rfl
    refine ⟨fun hstate hroom => ?_, fun hstate hfull => ?_, fun speed hstate hspeed => ?_⟩
    · exact (objectReport_of_measuring hk hp hstate).trans (if_pos hroom)
    · exact (objectReport_of_measuring hk hp hstate).trans ((if_neg (Nat.not_lt.2 hfull)).trans hover)
    · intro mm head number
      have hhead : isHead speed enter leave s = true ↔ head := isHead_iff speed enter leave s
      rw [objectReport_of_running hk hp hstate hspeed]
      refine ⟨fun hno => if_neg (hno ∘ hhead.1), fun hyes hfull => ?_, fun hyes hroom => ?_⟩
      · exact (if_pos (hhead.2 hyes)).trans ((if_neg (Nat.not_lt.2 hfull)).trans hover)
      · exact (if_pos (hhead.2 hyes)).trans (if_pos hroom)

/-! ## The blind track (R16-R18) -/

theorem reached_plusUs_of_elapsed {start now : Time} {d : Nat} (hd : 0 < d) (h : d ≤ elapsed start now) :
    reached (plusUs start d) now = true := by
  have hr : reached start now = true := by
    by_contra hn
    rw [elapsed_of_not_reached (Bool.eq_false_iff.2 hn)] at h
    omega
  rw [elapsed_of_reached hr] at h
  rw [reached_iff] at hr ⊢
  rw [BitVec.toNat_sub] at h hr ⊢
  rw [plusUs_toNat]
  omega

theorem not_reached_plusUs_of_elapsed {start now : Time} {d : Nat} (hd : d < 2 ^ 47) (hr : reached start now = true)
    (h : elapsed start now < d) : reached (plusUs start d) now = false := by
  rw [elapsed_of_reached hr] at h
  rw [Bool.eq_false_iff]
  intro hc
  rw [reached_iff] at hr hc
  rw [BitVec.toNat_sub] at h hr hc
  rw [plusUs_toNat] at hc
  omega

section
variable {now start : Time} {c : Curtain}

theorem Curtain.watchScan_of_lit : c.watchScan now true = { c with darkRunStart := none } := rfl

theorem Curtain.watchScan_of_new (h : c.darkRunStart = none) :
    c.watchScan now false = { c with darkRunStart := some now } := by
  simp [watchScan, h]

theorem Curtain.watchScan_of_running (h : c.darkRunStart = some start) : c.watchScan now false =
    if reached (plusUs start 1000000) now then { c.clear with blind := false } else c := by
  simp [watchScan, h]

end

theorem exec_stuckTimerExpiry (m : Moment) (t : TrackId) (s : State) :
    exec (.stuckTimerExpiry m t) s = event m (fun s =>
      if s.tracks[t].curtain.detector = .object ∧ expired s.tracks[t].curtain.stuckTimer s.gantryTime = true
      then curtainBlind t s else s) s := execStuckTimerExpiry.eq_1 m t s

theorem exec_curtainSilenceExpiry (m : Moment) (t : TrackId) (s : State) :
    exec (.curtainSilenceExpiry m t) s = event m (fun s =>
      if expired s.tracks[t].curtain.silenceTimer s.gantryTime then curtainSilence t s else s) s :=
  execCurtainSilenceExpiry.eq_1 m t s

theorem curtainSilence_of_sighted {t : TrackId} {s : State} (h : s.tracks[t].curtain.blind = false) :
    curtainSilence t s = raise (trackCause .curtainBlind t (servedId t s) none)
      (modCurtain t (fun c => { c.setBlind with silenceTimer := none }) s) := by
  unfold curtainSilence; dsimp only
  rw [if_neg (by rw [curtain_modCurtain, h]; decide), curtainBlind, servedId_modCurtain, modCurtain_modCurtain]
  rfl

theorem curtainSilence_of_blind {t : TrackId} {s : State} (h : s.tracks[t].curtain.blind = true) :
    curtainSilence t s = modCurtain t (fun c => { c with silenceTimer := none, darkRunStart := none }) s := by
  unfold curtainSilence; dsimp only
  rw [if_pos (by rw [curtain_modCurtain, h]), modCurtain_modCurtain]

/-- Settles O30: the watch by the elapsed dark run, the two timers by whether they have come. -/
theorem blindTrack : Obligations.BlindTrack := by
  unfold Obligations.BlindTrack
  refine ⟨fun now c => ⟨rfl, Curtain.watchScan_of_new, fun start hstart hshort hreached => ?_, fun start hstart hlong => ?_⟩,
    fun m t s => ?timers⟩
  · rw [Curtain.watchScan_of_running hstart,
      if_neg (by rw [not_reached_plusUs_of_elapsed (by decide) hreached hshort]; decide)]
  · rw [Curtain.watchScan_of_running hstart, if_pos (reached_plusUs_of_elapsed (by decide) hlong)]
    rfl
  case timers =>
    intro b c cause blinded hlive
    rw [exec_stuckTimerExpiry, exec_curtainSilenceExpiry, event_of_live hlive, event_of_live hlive]
    refine ⟨fun hobject hexpired => ?_, fun h => ?_, fun hexpired hsighted => ?_, fun hexpired hblind => ?_, fun h => ?_⟩
    · rw [if_pos ⟨hobject, hexpired⟩]; rfl
    · rw [if_neg (not_and_of_ne_or h)]
    · rw [if_pos hexpired, curtainSilence_of_sighted hsighted]; rfl
    · rw [if_pos hexpired, curtainSilence_of_blind hblind]
    · rw [if_neg (by rw [h]; decide)]

end Sys2Proof.Machine
end

section
/-! PROOFS. Accepted pulses and the ends of passages (01, R3-R11; 02, R21-R28, R35-R43). -/

namespace Sys2Proof.Machine

open Sys2Proof

/-! ## Lookups of a passage -/

theorem contextOf_eq_some_iff (id : PassageId) (k : ContextId) (s : State) :
    contextOf id s = some k ↔ (∃ p, s.passages[k] = some p ∧ p.id = id) ∧
      ∀ j : ContextId, j < k → ∀ p ∈ s.passages[j], p.id ≠ id := by
  have htest : ∀ j : ContextId, (match s.passages[j] with | none => false | some p => p.id == id) = true ↔
      ∃ p, s.passages[j] = some p ∧ p.id = id := fun j => by
    cases h : s.passages[j] with
    | none => simp
    | some p => simp
  refine find?_allContexts_eq_some_iff.trans (and_congr (htest k) (forall₂_congr fun j _ => ?_))
  refine Bool.eq_false_iff.trans ((not_congr (htest j)).trans ?_)
  simp only [Option.mem_def, not_exists, not_and, ne_eq]

theorem contextOf_eq_none_iff (id : PassageId) (s : State) :
    contextOf id s = none ↔ ¬∃ j : ContextId, ∃ p, s.passages[j] = some p ∧ p.id = id := by
  refine find?_allContexts_eq_none_iff.trans ?_
  rw [not_exists]
  refine forall_congr' fun j => ?_
  cases h : s.passages[j] with
  | none => simp
  | some p => simp

theorem contextOf_isSome_iff (id : PassageId) (s : State) :
    (contextOf id s).isSome = true ↔ ∃ j : ContextId, ∃ p, s.passages[j] = some p ∧ p.id = id := by
  rw [Option.isSome_iff_ne_none, ne_eq, contextOf_eq_none_iff, not_not]

/-! ## The ids and contexts of openings (R22, R23) -/

theorem nextId_eq (id : PassageId) : nextId id = if id = 65535 then 1 else id + 1 := by
  have h : id + 1 = 0 ↔ id = 65535 := by
    constructor
    · intro h; bv_omega
    · rintro rfl; rfl
  unfold nextId
  simp only [h]

theorem repeat_succ_eq {α : Type} (f : α → α) (n : Nat) (a : α) : Nat.repeat f (n + 1) a = Nat.repeat f n (f a) := by
  induction n with
  | zero => rfl
  | succ n ih => exact congrArg f ih

theorem unusedId_eq_repeat {s : State} : ∀ {n m : Nat} {id : PassageId}, n < m →
    (∀ i, i < n → (contextOf (Nat.repeat nextId i id) s).isSome = true) →
    ¬(contextOf (Nat.repeat nextId n id) s).isSome = true → unusedId m id s = Nat.repeat nextId n id
  | 0, m + 1, id, _, _, hfree => if_neg hfree
  | n + 1, m + 1, id, hlt, htaken, hfree => by
    have hfirst : (contextOf id s).isSome = true := htaken 0 (by omega)
    rw [unusedId, if_pos hfirst, repeat_succ_eq]
    rw [repeat_succ_eq] at hfree
    exact unusedId_eq_repeat (by omega) (fun i hi => repeat_succ_eq nextId i id ▸ htaken (i + 1) (by omega)) hfree

theorem trackPassages_eq (t : TrackId) (s : State) :
    trackPassages t s = (allContexts.filter fun k => s.passages[k].any fun p => p.track == t).length := by
  unfold trackPassages
  refine congrArg List.length (List.filter_congr fun k _ => ?_)
  cases s.passages[k] with
  | none => rfl
  | some p => rfl

theorem openingContext_of_refused {t : TrackId} {s : State}
    (h : (∀ k : ContextId, s.passages[k] ≠ none) ∨ 2 ≤ trackPassages t s) : openingContext t s = none := by
  unfold openingContext
  split
  · rfl
  · next hroom =>
    refine find?_allContexts_eq_none_iff.2 fun k => ?_
    exact Option.isNone_eq_false_iff.2 (Option.isSome_iff_ne_none.2 ((h.resolve_right hroom) k))

theorem openingContext_of_free {t : TrackId} {s : State} {k : ContextId} (hk : s.passages[k] = none)
    (hfirst : ∀ j : ContextId, j < k → s.passages[j] ≠ none) (hroom : trackPassages t s < 2) :
    openingContext t s = some k := by
  unfold openingContext
  rw [if_neg (Nat.not_le.2 hroom)]
  exact find?_allContexts_eq_some_iff.2 ⟨by rw [hk]; rfl, fun j hj =>
    Option.isNone_eq_false_iff.2 (Option.isSome_iff_ne_none.2 (hfirst j hj))⟩

/-! ## Wake notices (R24, R73) -/

theorem wakeTrack_eq (t : TrackId) (s : State) :
    wakeTrack t s = ([0, 1, 2, 3, 4, 5, 6, 7] : List StationId).foldl (fun s st =>
      if s.stations[st].plan.map StationPlan.track = some t then wakeNotice st s else s) s := by
  have hstep : (fun (s : State) (st : StationId) => match s.stations[st].plan with
      | none => s
      | some p => if p.track = t then wakeNotice st s else s) =
      fun s st => if s.stations[st].plan.map StationPlan.track = some t then wakeNotice st s else s := by
    funext s st
    cases s.stations[st].plan with
    | none => rfl
    | some p => simp
  exact congrArg (fun f => List.foldl f s allStations) hstep

section
variable {st : StationId} {s : State}

theorem wakeNotice_of_resting (h : s.stations[st].state = .resting) :
    wakeNotice st s = stationWakes st (enterWaking st s) := by
  unfold wakeNotice; rw [h]

theorem wakeNotice_of_idle (h : s.stations[st].state = .idle) : wakeNotice st s = restartRest st s := by
  unfold wakeNotice; rw [h]

theorem wakeNotice_of_other (hresting : s.stations[st].state ≠ .resting) (hidle : s.stations[st].state ≠ .idle) :
    wakeNotice st s = s := by
  unfold wakeNotice
  split
  case h_1 h => exact absurd h hresting
  case h_2 h => exact absurd h hidle
  all_goals rfl

theorem restTimerOf_of_no_plan (h : s.stations[st].plan = none) : restTimerOf st s = none := by
  unfold restTimerOf; rw [h]

theorem restTimerOf_of_plan {plan : StationPlan} (h : s.stations[st].plan = some plan) :
    restTimerOf st s = if plan.restS = 0 then none else some (plusUs s.gantryTime (plan.restS * 1000000)) := by
  unfold restTimerOf; rw [h]; rfl

end

/-! ## Pulses by the state of the track (R3, R6, R7, R8) -/

section
variable {t : TrackId} {w : Sensor} {time : Time} {s : State}

theorem acceptPulse_of_ignoring (h : s.tracks[t].state = .ignoring) : acceptPulse t w time s = startIgnore t s := by
  unfold acceptPulse; rw [h]

theorem acceptPulse_of_closing_unserved (h : s.tracks[t].state = .closing) (hserved : s.tracks[t].served = none) :
    acceptPulse t w time s = s := by
  unfold acceptPulse; rw [h]; dsimp only; rw [hserved]

theorem acceptPulse_of_watching_unserved (h : s.tracks[t].state = .watching) (hserved : s.tracks[t].served = none) :
    acceptPulse t w time s = unservedPulse t w time s := by
  unfold acceptPulse; rw [h]; dsimp only; rw [hserved]

theorem acceptPulse_of_served {v : Served} (h : s.tracks[t].state = .watching ∨ s.tracks[t].state = .closing)
    (hserved : s.tracks[t].served = some v) : acceptPulse t w time s = servedPulse t w v time s := by
  rcases h with h | h <;> (unfold acceptPulse; rw [h]; dsimp only; rw [hserved])

theorem unservedPulse_of_inner (h : w = .uInner ∨ w = .dInner) :
    unservedPulse t w time s = raise (trackCause .wheelUnpaired t none none) s := by
  rcases h with rfl | rfl
  · rw [unservedPulse]
  · rw [unservedPulse]

theorem askPassage_of_refused {d : Direction} (h : openingContext t s = none) :
    askPassage t d time s = raise (trackCause .passageRefused t none none) (startIgnore t s) := by
  unfold askPassage; rw [h]

theorem askPassage_up_of_free {k : ContextId} {id : PassageId} (h : openingContext t s = some k)
    (hid : unusedId 9 s.nextPassageId s = id) : askPassage t .up time s =
      firstPulse t .u time (modTrack t (fun u => { u with served := some { id := id, dir := .up } })
        (wakeTrack t { setPassage k (some (openedPassage id t .up time s)) s with nextPassageId := nextId id })) := by
  unfold askPassage openPassage; rw [h]; dsimp only; rw [hid]

theorem askPassage_down_of_free {k : ContextId} {id : PassageId} (h : openingContext t s = some k)
    (hid : unusedId 9 s.nextPassageId s = id) : askPassage t .down time s =
      firstPulse t .d time (modTrack t (fun u => { u with served := some { id := id, dir := .down } })
        (wakeTrack t { setPassage k (some (openedPassage id t .down time s)) s with nextPassageId := nextId id })) := by
  unfold askPassage openPassage; rw [h]; dsimp only; rw [hid]

theorem firstPulse_of_room {p : Pair} (h : (s.tracks[t].queue p).length < 4) :
    firstPulse t p time s = setQueue t p (s.tracks[t].queue p ++ [time]) s := if_pos h

theorem firstPulse_of_full {p : Pair} (h : 4 ≤ (s.tracks[t].queue p).length) :
    firstPulse t p time s = raise (trackCause .axleOverrun t (servedId t s) none) s := if_neg (Nat.not_lt.2 h)

end

/-- Settles O25: the track's state and the wheel decide; the next passage identifier is the first one not taken. -/
theorem unservedPulseObligation : Obligations.UnservedPulse := by
  unfold Obligations.UnservedPulse
  refine ⟨fun t w time s => ?pulse, wakeTrack_eq, fun st s => ?wake, fun id k s => contextOf_eq_some_iff id k s,
    fun t p time s => ?first⟩
  case pulse =>
    intro u held refused
    have hheld : trackPassages t s = held.length := trackPassages_eq t s
    have hignore : startIgnore t s = refused := modTrack_congr t rfl
    refine ⟨fun h => (acceptPulse_of_ignoring h).trans hignore, acceptPulse_of_closing_unserved, fun hwatching hserved hw => ?_,
      fun hwatching hserved hw => ⟨fun hrefused => ?_, fun k n hk hfirst hroom => ?_⟩⟩
    · rw [acceptPulse_of_watching_unserved hwatching hserved, unservedPulse_of_inner hw]
    · have hnone : openingContext t s = none := openingContext_of_refused (hrefused.imp_right fun h => hheld ▸ h)
      rw [acceptPulse_of_watching_unserved hwatching hserved, ← hignore]
      rcases hw with rfl | rfl <;> exact askPassage_of_refused hnone
    · intro next taken id hn htaken hfree dir opened
      have hnext : nextId = next := funext nextId_eq
      have hid : unusedId 9 s.nextPassageId s = id := by
        have h := unusedId_eq_repeat (s := s) (n := n) (m := 9) (id := s.nextPassageId) (by omega)
          (by rw [hnext]; exact fun i hi => (contextOf_isSome_iff _ s).2 (htaken i hi))
          (by rw [hnext]; exact fun h => hfree ((contextOf_isSome_iff _ s).1 h))
        rwa [hnext] at h
      have hfound := openingContext_of_free hk hfirst (hheld ▸ hroom)
      rw [acceptPulse_of_watching_unserved hwatching hserved]
      rcases hw with rfl | rfl
      · have h := askPassage_up_of_free (time := time) hfound hid
        rw [hnext] at h
        exact h
      · have h := askPassage_down_of_free (time := time) hfound hid
        rw [hnext] at h
        exact h
  case wake =>
    intro x
    refine ⟨fun hresting => ?_, fun hidle => ?_, wakeNotice_of_other⟩
    · refine (wakeNotice_of_resting hresting).trans (congrArg (stationWakes st) ?_)
      refine congrArg (fun limit => ({ s with
        stations := s.stations.set st
          { x with state := .waking, restTimer := none, wakeTimer := some (plusUs s.gantryTime limit) }
        outputs := s.outputs ++ [.wake st] } : State)) (?_ : millisUs (wakeLimitMs st s) = _)
      change _ = (fun plan : Option StationPlan => (match plan with | some p => p.wakeMs | none => 0) * 1000) s.stations[st].plan
      unfold millisUs wakeLimitMs
      cases s.stations[st].plan with
      | none => rfl
      | some plan => rfl
    · rw [wakeNotice_of_idle hidle]
      refine modStation_congr (g := fun _ => _) st ?_
      cases hplan : s.stations[st].plan with
      | none => rw [restTimerOf_of_no_plan hplan]; cases x.restTimer <;> rfl
      | some plan => rw [restTimerOf_of_plan hplan]; cases x.restTimer <;> rfl
  case first =>
    intro u queue
    cases p with
    | u => exact ⟨firstPulse_of_room (p := .u), firstPulse_of_full (p := .u)⟩
    | d => exact ⟨firstPulse_of_room (p := .d), firstPulse_of_full (p := .d)⟩

/-! ## Pulses of the served passage (R7, R9, R11) -/

theorem pulseNotice_tracks (id : PassageId) (w : Sensor) (time : Time) (s : State) :
    (pulseNotice id w time s).tracks = s.tracks := by
  unfold pulseNotice
  split
  · rfl
  · rfl

section
variable {t : TrackId} {w : Sensor} {p : Pair} {id : PassageId} {v : Served} {time : Time} {s : State}

theorem servedPulse_of_first (h : isFirst v.dir w = true) :
    servedPulse t w v time s = firstPulse t (pairOf w) time (pulseNotice v.id w time s) := if_pos h

theorem servedPulse_of_second (h : isFirst v.dir w = false) :
    servedPulse t w v time s = secondPulse t (pairOf w) v.id time (pulseNotice v.id w time s) :=
  if_neg (by rw [h]; decide)

theorem secondPulse_of_empty (h : s.tracks[t].queue p = []) : secondPulse t p id time s = unpairedPulse t s := by
  unfold secondPulse; rw [h]

theorem secondPulse_of_entry {first : Time} {rest : List Time} (h : s.tracks[t].queue p = first :: rest) :
    secondPulse t p id time s = testInterval t p id (elapsed first time) (setQueue t p rest s) := by
  unfold secondPulse; rw [h]

theorem testInterval_of_implausible {interval : Nat} (h : interval = 0 ∨ interval < shortestInterval t p s) :
    testInterval t p id interval s =
      implausibleNotice id (raise (trackCause .speedImplausible t (some id) (some interval)) s) := if_pos h.symm

theorem testInterval_of_plausible {interval : Nat} (hpos : 0 < interval) (h : shortestInterval t p s ≤ interval) :
    testInterval t p id interval s = measurement id (intervalSpeed (spacing t p s) interval) s :=
  if_neg (by omega)

end

/-! ## What a notice and a measurement do to the passage (R25, R27, R28, R35) -/

/-- A tail timer restarted at a last pulse time, with the estimate of a RUNNING passage or without one (R35). -/
def tailTimerOf (plan : TrackPlan) (speed : Option Nat) (last : Time) : TailTimer :=
  match speed with
  | none => { kind := .silence, expiry := plusUs last (plan.silenceS * 1000000) }
  | some v =>
    if plan.tail * 1000000 / v < plan.silenceS * 1000000 then
      { kind := .tail, expiry := plusUs last (plan.tail * 1000000 / v) }
    else { kind := .silence, expiry := plusUs last (plan.silenceS * 1000000) }

section
variable {plan : TrackPlan} {p : Passage}

theorem tailLength_of_untimed (h : p.state ≠ .running ∨ p.estimate = none) :
    tailLength p plan = (.silence, plan.silenceS * 1000000) := by
  unfold tailLength
  dsimp only
  split
  · next v hstate hspeed => exact absurd h (by rw [hstate, hspeed]; simp)
  · rfl

theorem tailLength_of_timed {v : Nat} (hstate : p.state = .running) (hspeed : p.estimate = some v) :
    tailLength p plan = if plan.tail * 1000000 / v < plan.silenceS * 1000000 then
      (.tail, plan.tail * 1000000 / v) else (.silence, plan.silenceS * 1000000) := by
  unfold tailLength
  rw [hstate, hspeed]
  rfl

theorem tailTimerOf_eq {speed : Option Nat} (h : (if p.state = .running then p.estimate else none) = speed) (last : Time) :
    tailTimerOf plan speed last = { kind := (tailLength p plan).1, expiry := plusUs last (tailLength p plan).2 } := by
  subst h
  by_cases hstate : p.state = .running
  · rw [if_pos hstate]
    rcases hspeed : p.estimate with _ | v
    · rw [tailLength_of_untimed (.inr hspeed)]; rfl
    · rw [tailLength_of_timed hstate hspeed]
      unfold tailTimerOf
      dsimp only
      split
      · rfl
      · rfl
  · rw [if_neg hstate, tailLength_of_untimed (.inl hstate)]; rfl

theorem Passage.restartTail_eq (plan : TrackPlan) (p : Passage) : p.restartTail plan =
    { p with tail := some (tailTimerOf plan (if p.state = .running then p.estimate else none) p.lastPulse) } := by
  rw [tailTimerOf_eq rfl]
  rfl

theorem Passage.restartTail_of_running (hstate : p.state = .running) :
    p.restartTail plan = { p with tail := some (tailTimerOf plan p.estimate p.lastPulse) } := by
  rw [restartTail_eq, if_pos hstate]

/-- The wheel count moves at the second sensor of the approach pair (R5, R25). -/
theorem eq_approachSecond_iff (d : Direction) (w : Sensor) :
    w = approachSecond d ↔ (d = .up ∧ w = .uInner) ∨ (d = .down ∧ w = .dInner) := by
  cases d <;> simp [approachSecond]

theorem Passage.measure_of_running {speed : Nat} {s : State} (hstate : p.state = .running) :
    p.measure speed plan s = Passage.restartTail plan { p with
      state := .running, estimate := some speed, minSpeed := some (min (p.minSpeed.getD speed) speed)
      maxSpeed := some (max (p.maxSpeed.getD speed) speed) } := by
  unfold measure startRunning
  dsimp only
  rw [hstate]

theorem Passage.measure_of_measuring {speed : Nat} {s : State} (hstate : p.state = .measuring) :
    p.measure speed plan s = Passage.restartTail plan { p with
      state := .running, estimate := some speed, minSpeed := some (min (p.minSpeed.getD speed) speed)
      maxSpeed := some (max (p.maxSpeed.getD speed) speed)
      sightings := (classify speed plan s 1 p.sightings).1
      roofItems := min (p.roofItems + (classify speed plan s 1 p.sightings).2) 65535 } := by
  unfold measure startRunning
  dsimp only
  rw [hstate]
  rfl

end

section
variable {id : PassageId} {s : State} {k : ContextId} {p : Passage}

theorem pulseNotice_of_not_open {w : Sensor} {time : Time} (h : openContext id s = none) : pulseNotice id w time s = s := by
  unfold pulseNotice; rw [h]

theorem pulseNotice_of_open {w : Sensor} {time : Time} (h : openContext id s = some (k, p)) :
    pulseNotice id w time s = setPassage k (some (p.pulse w time s.tracks[p.track].plan)) s := by
  unfold pulseNotice; rw [h]

theorem measurement_of_not_open {speed : Nat} (h : openContext id s = none) : measurement id speed s = s := by
  unfold measurement; rw [h]

theorem measurement_of_open {speed : Nat} (h : openContext id s = some (k, p)) : measurement id speed s =
    (madeNumbers p (p.measure speed s.tracks[p.track].plan s)).foldl (fun s n => planSighting k n s)
      (revise k speed (setPassage k (some (p.measure speed s.tracks[p.track].plan s)) s)) := by
  unfold measurement; rw [h]

theorem madeNumbers_of_running {q : Passage} (h : p.state = .running) : madeNumbers p q = [] := by
  unfold madeNumbers; rw [h]

theorem madeNumbers_of_measuring {q : Passage} (h : p.state = .measuring) :
    madeNumbers p q = q.sightings.filterMap Sighting.number := by
  unfold madeNumbers; rw [h]

end

theorem classify_cons_of_head {speed : Nat} {plan : TrackPlan} {s : State} {n : Nat} {x : Sighting} {rest : List Sighting}
    (h : isHead speed x.enter x.leave s = true) : classify speed plan s n (x :: rest) =
      (newSighting n speed x.enter x.leave x.topBeam plan :: (classify speed plan s (n + 1) rest).1,
        (classify speed plan s (n + 1) rest).2) := by
  rw [classify, if_pos h]

theorem classify_cons_of_roof_item {speed : Nat} {plan : TrackPlan} {s : State} {n : Nat} {x : Sighting}
    {rest : List Sighting} (h : ¬isHead speed x.enter x.leave s = true) : classify speed plan s n (x :: rest) =
      ((classify speed plan s n rest).1, (classify speed plan s n rest).2 + 1) := by
  rw [classify, if_neg h]

/-- Settles O26: the first wheel of the passage's direction fills the queue, the second takes its head; then the
interval's speed. -/
theorem servedPulseObligation : Obligations.ServedPulse := by
  unfold Obligations.ServedPulse
  refine ⟨⟨rfl, rfl, rfl, rfl, fun u => ⟨rfl, rfl⟩, rfl, rfl, rfl, rfl, rfl, rfl, rfl, rfl⟩, fun code t pid detail => rfl,
    fun t w v time s hstate hserved => ?pulse, fun t p id interval s => ?interval, fun id s => ?passage,
    fun speed plan s n => ⟨rfl, fun x rest => ?classify⟩⟩
  case pulse =>
    intro b q
    have hb : b.tracks[t].served = some v := by rw [pulseNotice_tracks]; exact hserved
    have hid : servedId t b = some v.id := by rw [servedId, hb]; rfl
    rw [acceptPulse_of_served hstate hserved]
    refine ⟨fun hfirst hroom => ?_, fun hfirst hfull => ?_, fun hsecond hempty => ?_, fun first rest hsecond hq => ?_⟩
    · rw [servedPulse_of_first hfirst, firstPulse_of_room hroom]
    · rw [servedPulse_of_first hfirst, firstPulse_of_full hfull, hid]
    · rw [servedPulse_of_second hsecond, secondPulse_of_empty hempty, unpairedPulse_of_served hid]
    · rw [servedPulse_of_second hsecond, secondPulse_of_entry hq]
  case interval =>
    intro mm
    have hspacing : spacing t p s = mm := by cases p <;> rfl
    have hshortest : shortestInterval t p s = mm * 1000000 / 111111 := by unfold shortestInterval; rw [hspacing]
    refine ⟨fun h => testInterval_of_implausible (hshortest.symm ▸ h), fun hpos h => ?_⟩
    rw [testInterval_of_plausible hpos (hshortest.symm ▸ h), hspacing, intervalSpeed, maxSpeed]
  case passage =>
    refine ⟨fun hnone => ?_, fun k p hk hp hfinishing => ?_, fun k p hk hp hopen => ?_⟩
    · have h := openContext_of_no_context hnone
      exact ⟨fun w time => pulseNotice_of_not_open h, fun speed => measurement_of_not_open h⟩
    · have h := openContext_of_finishing hk hp hfinishing
      exact ⟨fun w time => pulseNotice_of_not_open h, fun speed => measurement_of_not_open h⟩
    · intro plan silence tail set
      have h := openContext_of_open hk hp hopen
      have htail : tail = tailTimerOf plan := by
        funext speed last
        cases speed <;> rfl
      refine ⟨fun w time => ?_, fun speed => ?_⟩
      · intro last axle
        rw [pulseNotice_of_open h]
        refine congrArg set ?_
        have haxle : (if w = approachSecond p.dir then saturate (p.axles + 1) else p.axles) =
            if axle then min (p.axles + 1) 65535 else p.axles := by
          simp only [eq_approachSecond_iff]; rfl
        unfold Passage.pulse
        rw [haxle, htail]
        exact Passage.restartTail_eq _ _
      · intro measured q
        refine ⟨fun hstate => ?_, fun hstate => ?_⟩
        · have hq : p.measure speed plan s = measured :=
            (Passage.measure_of_running hstate).trans ((Passage.restartTail_of_running rfl).trans (by rw [← htail]))
          have hmade := measurement_of_open (speed := speed) h
          rw [madeNumbers_of_running hstate, hq] at hmade
          exact hmade
        · have hq : p.measure speed plan s = { measured with
              sightings := q.1, roofItems := min (p.roofItems + q.2) 65535 } :=
            (Passage.measure_of_measuring hstate).trans ((Passage.restartTail_of_running rfl).trans (by rw [← htail]))
          have hmade := measurement_of_open (speed := speed) h
          rw [madeNumbers_of_measuring hstate, hq] at hmade
          exact hmade
  case classify =>
    intro mm sighting
    have hhead := isHead_iff speed x.enter x.leave s
    exact ⟨fun h => classify_cons_of_head (hhead.2 h), fun h => classify_cons_of_roof_item fun hc => h (hhead.1 hc)⟩

/-! ## The ends of passages (R2, R36-R43) -/

theorem exec_tailTimerExpiry (m : Moment) (k : ContextId) (s : State) :
    exec (.tailTimerExpiry m k) s = event m (tailExpiry k) s := execTailTimerExpiry.eq_1 m k s

section
variable {k : ContextId} {p : Passage} {tail : TailTimer} {expiry : Time} {s : State} (hp : s.passages[k] = some p)
include hp

theorem tailExpiry_of_tail (htail : p.tail = some ⟨.tail, expiry⟩) (hreached : reached expiry s.gantryTime = true) :
    tailExpiry k s = enterFinishing k p .cleared s := by
  unfold tailExpiry; rw [hp]; dsimp only; rw [htail]; exact if_pos hreached

theorem tailExpiry_of_silence (htail : p.tail = some ⟨.silence, expiry⟩) (hreached : reached expiry s.gantryTime = true) :
    tailExpiry k s = enterFinishing k p .stalled s := by
  unfold tailExpiry; rw [hp]; dsimp only; rw [htail]; exact if_pos hreached

theorem tailExpiry_of_running (htail : p.tail = some tail) (hreached : reached tail.expiry s.gantryTime = false) :
    tailExpiry k s = s := by
  unfold tailExpiry; rw [hp]; dsimp only; rw [htail]; exact if_neg (by rw [hreached]; decide)

end

theorem enterFinishing_cleared (k : ContextId) (p : Passage) (s : State) : enterFinishing k p .cleared s =
    completeIfDone p.id (clearServed p.track p.id
      (setPassage k (some { p with state := .finishing, close := some .cleared, tail := none }) s)) := by
  rw [enterFinishing, closeWith, closeNotices]

theorem enterFinishing_stalled (k : ContextId) (p : Passage) (s : State) : enterFinishing k p .stalled s =
    completeIfDone p.id (removal p.id .stalled (raise
      { code := .passageStalled, track := some p.track, station := none, unit := none, pid := some p.id, detail := none }
      (clearServed p.track p.id
        (setPassage k (some { p with state := .finishing, close := some .stalled, tail := none }) s)))) := by
  rw [enterFinishing, closeWith, closeNotices]

theorem tailExpiry_of_no_tail {k : ContextId} {s : State} (h : s.passages[k].bind Passage.tail = none) :
    tailExpiry k s = s := by
  unfold tailExpiry
  cases hp : s.passages[k] with
  | none => rfl
  | some p =>
    rw [hp] at h
    change p.tail = none at h
    dsimp only
    rw [h]

theorem foldl_modStation_frame (f : Station → Station) : ∀ (l : List StationId) (s : State),
    l.foldl (fun s st => modStation st f s) s =
      { s with stations := (l.foldl (fun s st => modStation st f s) s).stations }
  | [], _ => rfl
  | st :: rest, s => foldl_modStation_frame f rest (modStation st f s)

/-- The eight stations take an update one after the other. -/
theorem modStation_each (f : Station → Station) (s : State) :
    allStations.foldl (fun s st => modStation st f s) s = { s with stations := s.stations.map f } := by
  have hstations : (allStations.foldl (fun s st => modStation st f s) s).stations = s.stations.map f := by
    apply Vector.ext
    intro i hi
    interval_cases i <;> simp [allStations]
  rw [foldl_modStation_frame, hstations]

theorem completeIfDone_of_context {k : ContextId} {p : Passage} {s : State} (hk : contextOf p.id s = some k)
    (hp : s.passages[k] = some p) : completeIfDone p.id s =
      if p.state = .finishing ∧ p.outstanding = 0 then completePassage k p s else s := by
  unfold completeIfDone; rw [hk]; dsimp only; rw [hp]

theorem completePassage_of_live {k : ContextId} {p : Passage} {s t : State}
    (ht : (handRecord (.passage (passageRecordOf p)) s).1 = t) (hlive : t.device ≠ .failed) :
    completePassage k p s = contextFreed p.track { t with
      passages := t.passages.set k none
      stations := t.stations.map fun x => { x with marks := x.marks.filter fun n => n.pid != p.id } } := by
  unfold completePassage
  dsimp only
  rw [ht, if_neg hlive, discardMarks, modStation_each]
  rfl

theorem clearServed_of_serving {t : TrackId} {id : PassageId} {v : Served} {s : State} (hv : s.tracks[t].served = some v)
    (hid : v.id = id) :
    clearServed t id s = modTrack t (fun u => { u with served := none, uQueue := [], dQueue := [] }) s := by
  apply modTrack_congr
  rw [hv]
  exact if_pos hid

theorem modTrack_of_fixed {t : TrackId} {f : TrackUnit → TrackUnit} {s : State} (h : f s.tracks[t] = s.tracks[t]) :
    modTrack t f s = s := by
  unfold modTrack
  rw [h]
  simp

theorem clearServed_of_other {t : TrackId} {id : PassageId} {s : State}
    (h : ¬∃ v, s.tracks[t].served = some v ∧ v.id = id) : clearServed t id s = s := by
  apply modTrack_of_fixed
  cases hv : s.tracks[t].served with
  | none => rfl
  | some v => exact if_neg fun hid => h ⟨v, hv, hid⟩

/-- Settles O31: the tail's kind gives the close reason; the passage completes where nothing is outstanding. -/
theorem passageEnds : Obligations.PassageEnds := by
  unfold Obligations.PassageEnds
  refine ⟨fun m k s => ?tail, fun k p s hp hfirst => ⟨fun hstate hnone => ?complete, fun h => ?incomplete⟩, fun t s => ?freed,
    fun t id s => ⟨fun ⟨v, hv, hid⟩ => clearServed_of_serving hv hid, clearServed_of_other⟩, fun p => rfl⟩
  case tail =>
    intro b ended hlive
    rw [exec_tailTimerExpiry, event_of_live hlive]
    refine ⟨fun p expiry hp htail hreached => ?_, fun p expiry hp htail hreached => ?_, fun p tail hp htail hreached => ?_,
      fun hnone => ?_⟩
    · rw [tailExpiry_of_tail hp htail hreached, enterFinishing_cleared]; rfl
    · rw [tailExpiry_of_silence hp htail hreached, enterFinishing_stalled]; rfl
    · rw [tailExpiry_of_running hp htail hreached]
    · rw [tailExpiry_of_no_tail hnone]
  case complete =>
    intro t hlive
    have hk : contextOf p.id s = some k := (contextOf_eq_some_iff _ _ _).2 ⟨⟨p, hp, rfl⟩, hfirst⟩
    rw [completeIfDone_of_context hk hp, if_pos ⟨hstate, hnone⟩]
    exact completePassage_of_live rfl hlive
  case incomplete =>
    have hk : contextOf p.id s = some k := (contextOf_eq_some_iff _ _ _).2 ⟨⟨p, hp, rfl⟩, hfirst⟩
    rw [completeIfDone_of_context hk hp, if_neg fun hc => h.elim (fun hn => hn hc.1) fun hn => hn hc.2]
  case freed =>
    intro open_
    have hopen : trackHasPassage t s = false ↔ ¬open_ := by
      rw [← Bool.not_eq_true, trackHasPassage_iff]
    refine ⟨fun hclosing hno => if_pos ⟨hclosing, hopen.2 hno⟩, fun h => if_neg fun hc => ?_⟩
    exact h.elim (fun hn => hn hc.1) (hopen.1 hc.2)

end Sys2Proof.Machine
end

section
/-! PROOFS. The schedule: its order, planning, lapses, due expiries and misses (03, R47-R65). -/

namespace Sys2Proof.Machine

open Sys2Proof

/-! ## Times from a base (log 4) -/

/-- Of two times within half the range after a base, one is reached at the other when it is not farther from the base. -/
theorem reached_iff_from_base {t u base : Time} (ht : (t - base).toNat < 2 ^ 47) (hu : (u - base).toNat < 2 ^ 47) :
    reached t u = true ↔ (t - base).toNat ≤ (u - base).toNat := by
  rw [reached_iff]
  have ht' := t.isLt
  have hu' := u.isLt
  have hbase := base.isLt
  simp only [BitVec.toNat_sub] at *
  omega

theorem eq_of_same_distance {t u base : Time} (h : (t - base).toNat = (u - base).toNat) : t = u := by
  have hd : t - base = u - base := BitVec.eq_of_toNat_eq h
  exact sub_left_injective hd

/-! ## The order of the schedule (R47) -/

/-- One request stands before another, due times being counted from a base: by due time, then by station. -/
def StandsWithin (base : Time) (q r : Request) : Prop :=
  (q.due - base).toNat < (r.due - base).toNat ∨ (q.due = r.due ∧ q.station ≤ r.station)

theorem StandsWithin.trans {base : Time} {p q r : Request} (hpq : StandsWithin base p q) (hqr : StandsWithin base q r) :
    StandsWithin base p r := by
  rcases hpq with hpq | ⟨hd, hs⟩
  · rcases hqr with hqr | ⟨hd', hs'⟩
    · exact .inl (hpq.trans hqr)
    · exact .inl (hd' ▸ hpq)
  · rcases hqr with hqr | ⟨hd', hs'⟩
    · exact .inl (hd.symm ▸ hqr)
    · exact .inr ⟨hd.trans hd', hs.trans hs'⟩

theorem StandsWithin.of_not {base : Time} {q r : Request} (h : ¬StandsWithin base q r) : StandsWithin base r q := by
  obtain ⟨hd, hs⟩ := not_or.1 h
  rcases Nat.lt_or_eq_of_le (Nat.not_lt.1 hd) with hlt | heq
  · exact .inl hlt
  · have hdue := eq_of_same_distance heq
    exact .inr ⟨hdue, le_of_lt (not_le.1 fun hle => hs ⟨hdue.symm, hle⟩)⟩

theorem standsBefore_iff {base : Time} {q r : Request} (hq : (q.due - base).toNat < 2 ^ 47)
    (hr : (r.due - base).toNat < 2 ^ 47) : standsBefore q r = true ↔ StandsWithin base q r := by
  have hearlier : earlier q.due r.due = true ↔ (q.due - base).toNat < (r.due - base).toNat := by
    rw [earlier, Bool.not_eq_true', ← Bool.not_eq_true, reached_iff_from_base hr hq, Nat.not_le]
  simp only [standsBefore, Bool.or_eq_true, hearlier, Bool.and_eq_true, beq_iff_eq, decide_eq_true_eq, StandsWithin,
    Fin.le_def]

theorem placeInOrder_eq (r : Request) : ∀ l : List Request,
    placeInOrder r l = l.takeWhile (standsBefore · r) ++ r :: l.dropWhile (standsBefore · r)
  | [] => rfl
  | q :: rest => by
    cases h : standsBefore q r with
    | true =>
      rw [placeInOrder, if_pos h, placeInOrder_eq r rest, List.takeWhile_cons_of_pos (p := (standsBefore · r)) h,
        List.dropWhile_cons_of_pos (p := (standsBefore · r)) h,
        List.cons_append]
    | false =>
      have hn : ¬standsBefore q r = true := by rw [h]; decide
      rw [placeInOrder, if_neg hn, List.takeWhile_cons_of_neg (p := (standsBefore · r)) hn,
        List.dropWhile_cons_of_neg (p := (standsBefore · r)) hn, List.nil_append]

theorem placeInOrder_perm (r : Request) : ∀ l : List Request, (placeInOrder r l).Perm (r :: l)
  | [] => .refl _
  | q :: rest => by
    rw [placeInOrder]
    split
    · exact ((placeInOrder_perm r rest).cons q).trans (.swap r q rest)
    · exact .refl _

section
variable {base : Time} {r : Request} (hr : (r.due - base).toNat < 2 ^ 47)
include hr

/-- What stands behind a placed request does not stand before it. -/
theorem not_standsWithin_of_behind : ∀ {l : List Request}, (∀ q ∈ l, (q.due - base).toNat < 2 ^ 47) →
    l.Pairwise (StandsWithin base) → ∀ q ∈ l.dropWhile (standsBefore · r), ¬StandsWithin base q r
  | [], _, _, _, h => absurd h List.not_mem_nil
  | x :: rest, hrange, hordered, q, hq => by
    obtain ⟨hx, hrest⟩ := List.forall_mem_cons.1 hrange
    obtain ⟨hbehind, hpair⟩ := List.pairwise_cons.1 hordered
    by_cases hstands : standsBefore x r = true
    · rw [List.dropWhile_cons_of_pos (p := (standsBefore · r)) hstands] at hq
      exact not_standsWithin_of_behind hrest hpair q hq
    · rw [List.dropWhile_cons_of_neg (p := (standsBefore · r)) hstands] at hq
      rw [standsBefore_iff hx hr] at hstands
      rcases List.mem_cons.1 hq with rfl | hq
      · exact hstands
      · exact fun h => hstands ((hbehind q hq).trans h)

theorem pairwise_placeInOrder : ∀ {l : List Request}, (∀ q ∈ l, (q.due - base).toNat < 2 ^ 47) →
    l.Pairwise (StandsWithin base) → (placeInOrder r l).Pairwise (StandsWithin base)
  | [], _, _ => List.pairwise_singleton _ _
  | x :: rest, hrange, hordered => by
    obtain ⟨hx, hrest⟩ := List.forall_mem_cons.1 hrange
    obtain ⟨hbehind, hpair⟩ := List.pairwise_cons.1 hordered
    rw [placeInOrder]
    split
    · next hstands =>
      rw [standsBefore_iff hx hr] at hstands
      refine List.pairwise_cons.2 ⟨fun q hq => ?_, pairwise_placeInOrder hrest hpair⟩
      rcases List.mem_cons.1 ((placeInOrder_perm r rest).subset hq) with rfl | hq
      · exact hstands
      · exact hbehind q hq
    · next hstands =>
      rw [standsBefore_iff hx hr] at hstands
      refine List.pairwise_cons.2 ⟨fun q hq => ?_, hordered⟩
      rcases List.mem_cons.1 hq with rfl | hq
      · exact .of_not hstands
      · exact (StandsWithin.of_not hstands).trans (hbehind q hq)

end

/-- Settles O34: the list is split before the first request that stands behind the new one. -/
theorem placingKeepsOrder : Obligations.PlacingKeepsOrder := by
  unfold Obligations.PlacingKeepsOrder
  intro r l base at_ ordered
  refine ⟨⟨l.takeWhile (standsBefore · r), l.dropWhile (standsBefore · r), List.takeWhile_append_dropWhile.symm,
    placeInOrder_eq r l, fun hr hrange hordered q hq ⟨hdue, hstation⟩ => ?_⟩,
    fun hr hrange hordered => pairwise_placeInOrder hr hrange hordered, placeInOrder_perm r l⟩
  exact not_standsWithin_of_behind hr hrange hordered q hq (.inr ⟨hdue, le_of_eq hstation⟩)

/-! ## Planning (R49-R51, R54, R55) -/

theorem serves_up_iff (t : TrackId) (p : StationPlan) :
    serves t .up p = true ↔ p.track = t ∧ p.servesUp = true ∧ 0 < p.offset := by
  simp only [serves, servesDirection, Bool.and_eq_true, beq_iff_eq, and_assoc]
  exact and_congr_right fun _ => and_congr_right fun _ => decide_eq_true_iff

theorem serves_down_iff (t : TrackId) (p : StationPlan) :
    serves t .down p = true ↔ p.track = t ∧ p.servesDown = true ∧ p.offset < 0 := by
  simp only [serves, servesDirection, Bool.and_eq_true, beq_iff_eq, and_assoc]
  exact and_congr_right fun _ => and_congr_right fun _ => decide_eq_true_iff.trans Int.neg_pos

section
variable {p : Passage} {x : Sighting} {number speed : Nat} {st : StationId} {s : State}

theorem requestAt_of_served {plan : StationPlan} {program : ProgramId} (hplan : s.stations[st].plan = some plan)
    (hserves : serves p.track p.dir plan = true) (hprogram : programFor p.dir plan = some program) :
    requestAt p x number speed st s = some
      { pid := p.id, sighting := number, station := st, program := program
        due := dueTime x.enter x.leave p.dir plan speed, tolerance := plan.tolerance, testSpeed := none } := by
  unfold requestAt; rw [hplan]
  exact (if_pos hserves).trans (by rw [hprogram, Option.map_some])

theorem requestAt_of_not_served (h : ∀ plan, s.stations[st].plan = some plan → serves p.track p.dir plan = true →
    programFor p.dir plan = none) : requestAt p x number speed st s = none := by
  unfold requestAt
  cases hplan : s.stations[st].plan with
  | none => rfl
  | some plan =>
    dsimp only
    split
    · next hserves => rw [h plan hplan hserves, Option.map_none]
    · rfl

end

section
variable {r : Request} {s : State} {placed : List Request}

theorem planRequest_of_late (h : r.lapsed s.gantryTime = true) :
    planRequest r (s, placed) = (declareMiss false .late r s, placed) := if_pos h

theorem planRequest_of_offline (hlate : ¬r.lapsed s.gantryTime = true) (h : s.stations[r.station].state = .offline) :
    planRequest r (s, placed) = (declareMiss false .offline r s, placed) := (if_neg hlate).trans (if_pos h)

theorem planRequest_of_full (hlate : ¬r.lapsed s.gantryTime = true) (honline : ¬s.stations[r.station].state = .offline)
    (h : 48 ≤ s.schedule.length) :
    planRequest r (s, placed) = (declareMiss false .notPlanned r (scheduleFull r s), placed) :=
  (if_neg hlate).trans ((if_neg honline).trans (if_pos h))

theorem planRequest_of_room (hlate : ¬r.lapsed s.gantryTime = true) (honline : ¬s.stations[r.station].state = .offline)
    (h : s.schedule.length < 48) : planRequest r (s, placed) = (placeRequest r s, placed ++ [r]) :=
  (if_neg hlate).trans ((if_neg honline).trans (if_neg (Nat.not_le.2 h)))

end

theorem planSighting_of_found {k : ContextId} {number : Nat} {p : Passage} {x : Sighting} {s : State} {q : State × List Request}
    (hp : s.passages[k] = some p) (hx : p.sightings.find? (fun x => x.number == some number) = some x)
    (hq : (allStations.filterMap fun st => requestAt p x number (x.speed.getD 0) st s).foldl
      (fun q r => planRequest r q) (s, []) = q) :
    planSighting k number s = drain (placedOffers q.2 (modPassage k (Passage.answer number q.2.length) q.1))
      (modPassage k (Passage.answer number q.2.length) q.1) := by
  unfold planSighting; rw [hp]; dsimp only; rw [hx]; dsimp only; rw [hq]

theorem Passage.answer_eq (number n : Nat) : Passage.answer number n = fun p => { p with
    outstanding := p.outstanding + n
    sightings := p.sightings.map fun x => if x.number = some number
      then { x with openRequests := n, state := if n = 0 then .accounted else .planned } else x } := by
  funext p
  simp only [Passage.answer, Sighting.answer, beq_iff_eq]

theorem revise_of_no_passage {k : ContextId} {speed : Nat} {s : State} (h : s.passages[k] = none) : revise k speed s = s := by
  unfold revise; rw [h]

theorem revise_of_none_waiting {k : ContextId} {speed : Nat} {p : Passage} {s : State} (hp : s.passages[k] = some p)
    (h : ∀ r ∈ s.schedule, r.pid ≠ p.id) : revise k speed s = s := by
  unfold revise; rw [hp]
  refine if_neg fun hc => ?_
  obtain ⟨r, hr, hid⟩ := List.any_eq_true.1 hc
  exact h r hr (eq_of_beq hid)

theorem revise_of_waiting {k : ContextId} {speed : Nat} {p : Passage} {s : State} (hp : s.passages[k] = some p)
    (h : ∃ r ∈ s.schedule, r.pid = p.id) : revise k speed s = replanAll p speed s := by
  unfold revise; rw [hp]
  obtain ⟨r, hr, hid⟩ := h
  exact if_pos (List.any_eq_true.2 ⟨r, hr, by rw [hid]; exact beq_self_eq_true _⟩)

theorem replanAll_eq {p : Passage} {speed : Nat} {s moved kept placed : State}
    (hmoved : { s with schedule := s.schedule.map fun r => if r.pid == p.id then r.replan p speed s else r } = moved)
    (hkept : missAll .late (moved.schedule.filter fun r => r.pid == p.id && r.lapsed moved.gantryTime) moved = kept)
    (hplaced : setDueTimer { kept with
      dueTimer := s.dueTimer
      schedule := (kept.schedule.filter fun r => r.pid == p.id).foldl (fun l r => placeInOrder r l)
        (kept.schedule.filter fun r => r.pid != p.id) } = placed) :
    replanAll p speed s = drain (dueOffers placed) placed := by
  subst hmoved hkept hplaced
  rfl

theorem Request.replan_of_found {p : Passage} {speed : Nat} {s : State} {r : Request} {x : Sighting} {plan : StationPlan}
    (hx : p.sightings.find? (fun x => x.number == some r.sighting) = some x) (hplan : s.stations[r.station].plan = some plan) :
    r.replan p speed s = { r with due := dueTime x.enter x.leave p.dir plan speed } := by
  unfold replan; rw [hx, hplan]

/-- Settles O35: a request by the station that serves the direction, its placing by the first refusal, a revision by the
waiting ones. -/
theorem planning : Obligations.Planning := by
  unfold Obligations.Planning
  refine ⟨⟨fun enter leave p speed => ⟨rfl, rfl⟩, fun t p => ⟨serves_up_iff t p, serves_down_iff t p⟩,
      fun p x number speed st s => ?requests⟩,
    fun r s placed => ⟨planRequest_of_late, planRequest_of_offline, planRequest_of_full, planRequest_of_room, rfl⟩,
    fun k number p x s hp hx => ?sighting,
    fun k speed s => ⟨revise_of_no_passage, fun p hp h => revise_of_none_waiting hp h, fun p hp h => ?waiting,
      fun p r x plan hx hplan => Request.replan_of_found hx hplan⟩⟩
  case requests =>
    intro program
    have hprogram : programFor p.dir = program := by
      funext plan
      unfold programFor
      change _ = (fun d : Direction => match d with | .up => plan.programUp | .down => plan.programDown) p.dir
      cases p.dir <;> rfl
    exact ⟨fun plan n hplan hserves hn => requestAt_of_served hplan hserves (by rw [hprogram]; exact hn),
      fun h => requestAt_of_not_served (by rw [hprogram]; exact h)⟩
  case sighting =>
    intro requests q n t
    have ht : modPassage k (Passage.answer number q.2.length) q.1 = t := by rw [Passage.answer_eq]; rfl
    rw [planSighting_of_found hp hx rfl]
    change drain (placedOffers q.2 (modPassage k (Passage.answer number q.2.length) q.1)) _ = _
    rw [ht]
    rfl
  case waiting =>
    intro moved kept placed
    have hmoved : ({ s with schedule := s.schedule.map fun r => if r.pid == p.id then r.replan p speed s else r } : State) =
        moved := by
      simp only [beq_iff_eq]
      rfl
    exact (revise_of_waiting hp h).trans (replanAll_eq (kept := kept) hmoved rfl rfl)

/-! ## Lapses (R60) -/

section
variable {r : Request} {s : State} (hearliest : earliestOf r.station s = some r)
include hearliest

theorem offer_of_taken (hidle : s.stations[r.station].state = .idle) (hdue : reached r.due s.gantryTime = true)
    (hlapsed : r.lapsed s.gantryTime = false) : offer r.station s = handOver r s := by
  unfold offer; rw [hearliest]
  exact if_pos ⟨hidle, hdue, hlapsed⟩

theorem offer_of_not_taken (h : s.stations[r.station].state ≠ .idle ∨ reached r.due s.gantryTime = false ∨
    r.lapsed s.gantryTime = true) : offer r.station s = (s, []) := by
  unfold offer; rw [hearliest]
  refine if_neg fun ⟨hidle, hdue, hlapsed⟩ => ?_
  rcases h with h | h | h
  · exact h hidle
  · rw [hdue] at h; exact Bool.noConfusion h
  · rw [hlapsed] at h; exact Bool.noConfusion h

end

theorem reached_plusUs_plusUs_iff (t : Time) {d e : Nat} (hd : d < 2 ^ 47) (he : e < 2 ^ 47) :
    reached (plusUs t d) (plusUs t e) = true ↔ d ≤ e := by
  have hd' : (plusUs t d - t).toNat = d := plusUs_sub t (by omega)
  have he' : (plusUs t e - t).toNat = e := plusUs_sub t (by omega)
  rw [reached_iff_from_base (base := t) (by omega) (by omega), hd', he']

theorem eq_plusUs_of_reached {t u : Time} : plusUs t (u - t).toNat = u := by
  apply BitVec.eq_of_toNat_eq
  rw [plusUs_toNat, BitVec.toNat_sub]
  omega

/-- Settles O36: lapsing is a distance above the tolerance, since the due time lies less than half the range back. -/
theorem lapseOfRequest : Obligations.LapseOfRequest := by
  unfold Obligations.LapseOfRequest
  intro r s hearliest hidle htolerance
  have hlapse : ∀ late, late < 2 ^ 47 → s.gantryTime = plusUs r.due late →
      (r.lapsed s.gantryTime = true ↔ r.tolerance + 1 ≤ late) := fun late hlate hnow => by
    rw [hnow]
    exact reached_plusUs_plusUs_iff r.due (by omega) hlate
  refine ⟨rfl, fun late hlate hnow => ⟨fun hin => ?_, fun hout => ?_⟩, fun hdue => offer_of_not_taken hearliest (.inr (.inl hdue)),
    fun hzero hother => ?_⟩
  · have hnot : ¬r.lapsed s.gantryTime = true := by rw [hlapse late hlate hnow]; omega
    exact offer_of_taken hearliest hidle (by rw [hnow]; exact reached_plusUs _ hlate) (Bool.eq_false_iff.2 hnot)
  · exact offer_of_not_taken hearliest (.inr (.inr ((hlapse late hlate hnow).2 (by omega))))
  · by_cases hdue : reached r.due s.gantryTime = true
    · have hd := (reached_iff _ _).1 hdue
      refine offer_of_not_taken hearliest (.inr (.inr ((hlapse _ hd eq_plusUs_of_reached.symm).2 ?_)))
      have hpos : (s.gantryTime - r.due).toNat ≠ 0 := fun h0 => hother (by
        rw [← eq_plusUs_of_reached (t := r.due) (u := s.gantryTime), h0]
        simp [plusUs])
      omega
    · exact offer_of_not_taken hearliest (.inr (.inl (Bool.eq_false_iff.2 hdue)))

/-! ## The due timer (R58, R61, R62) -/

theorem runOf_speed (r : Request) (s : State) :
    (runOf r s).speed = r.testSpeed.getD (((passageOf r.pid s).bind Passage.estimate).getD 0) := by
  unfold runOf
  cases r.testSpeed <;> rfl

theorem exec_dueTimerExpiry (m : Moment) (s : State) : exec (.dueTimerExpiry m) s =
    event m (fun s => if expired s.dueTimer s.gantryTime then dueExpiry s else s) s := execDueTimerExpiry.eq_1 m s

theorem sameKey_self (r : Request) : sameKey r r = true := by simp [sameKey]

theorem missAll_nil (reason : MissReason) (s : State) : missAll reason [] s = s := rfl

theorem missAll_cons_of_waiting {reason : MissReason} {r : Request} {rest : List Request} {s : State}
    (h : s.schedule.any (sameKey r) = true) :
    missAll reason (r :: rest) s = missAll reason rest (declareMiss true reason r s) := by
  rw [missAll, List.foldl_cons, if_pos h]
  rfl

theorem missAll_cons_of_gone {reason : MissReason} {r : Request} {rest : List Request} {s : State}
    (h : ¬s.schedule.any (sameKey r) = true) : missAll reason (r :: rest) s = missAll reason rest s := by
  rw [missAll, List.foldl_cons, if_neg h]
  rfl

/-- The due timer's expiry, by the state that the misses leave. -/
theorem dueExpiry_eq {s c : State} (hc : (s.schedule.filter fun r => r.lapsed s.gantryTime).foldl
    (fun s r => missAll (lapseReason r.station s) [r] s) { s with dueTimer := none } = c) :
    dueExpiry s = freshDueTimer (drain (dueOffers c) c) := by
  unfold dueExpiry
  dsimp only
  rw [hc]

/-- The earliest of the instants, counted from a base that they all lie after. -/
theorem earliestInstant_spec (taken base : Time) : ∀ {l : List Request}, l ≠ [] →
    (∀ r ∈ l, (r.nextInstant taken - base).toNat < 2 ^ 47) →
    ∃ r ∈ l, earliestInstant taken l = some (r.nextInstant taken) ∧
      ∀ q ∈ l, (r.nextInstant taken - base).toNat ≤ (q.nextInstant taken - base).toNat
  | [r], _, _ => ⟨r, List.mem_singleton_self r, rfl, fun q hq => by rw [List.mem_singleton.1 hq]⟩
  | r :: x :: rest, _, hrange => by
    obtain ⟨hr, hrest⟩ := List.forall_mem_cons.1 hrange
    obtain ⟨q, hq, hearliest, hleast⟩ := earliestInstant_spec taken base (List.cons_ne_nil x rest) hrest
    have hstep : earliestInstant taken (r :: x :: rest) =
        some (if reached (r.nextInstant taken) (q.nextInstant taken) then r.nextInstant taken else q.nextInstant taken) := by
      rw [earliestInstant, hearliest]
    have hreached := reached_iff_from_base hr (hrest q hq)
    by_cases hfirst : reached (r.nextInstant taken) (q.nextInstant taken) = true
    · refine ⟨r, List.mem_cons_self, by rw [hstep, if_pos hfirst], List.forall_mem_cons.2 ⟨le_refl _, fun y hy => ?_⟩⟩
      exact (hreached.1 hfirst).trans (hleast y hy)
    · refine ⟨q, List.mem_cons_of_mem _ hq, by rw [hstep, if_neg hfirst], List.forall_mem_cons.2 ⟨?_, hleast⟩⟩
      exact le_of_lt (Nat.not_le.1 fun h => hfirst (hreached.2 h))

/-- Settles O37: the lapsed requests are missed, the others offered; the timer is set to the earliest due time left. -/
theorem dueRequests : Obligations.DueRequests := by
  unfold Obligations.DueRequests
  refine ⟨fun r s => ?handOver, fun m s => ?expiry,
    fun s => ⟨setDueTimer_of_not_expired, fun t ht hreached => setDueTimer_of_pending ht hreached⟩, fun upTo base l => ?earliest⟩
  case handOver =>
    intro st
    refine ⟨?_, fun hearliest h => offer_of_not_taken hearliest (h.symm.imp_right .inl)⟩
    rw [← runOf_speed]
    rfl
  case expiry =>
    intro b a lapsed reason offers afresh hlive
    have hreason : (fun r s => lapseReason r.station s) = reason := by
      funext r s
      unfold lapseReason
      change _ = (fun state : StationState => match state with
        | .resting => MissReason.waking | .waking => .waking | .offline => .offline | .idle => .busy | .running => .busy
        | .ending => .busy) s.stations[r.station].state
      cases s.stations[r.station].state <;> rfl
    have hexpiry : expired b.dueTimer b.gantryTime = true →
        exec (.dueTimerExpiry m) s = .next (conclude (afresh (drain
          (offers (lapsed.foldl (fun s r => missAll (reason r s) [r] s) a))
          (lapsed.foldl (fun s r => missAll (reason r s) [r] s) a)))) := fun h => by
      have hfold : (b.schedule.filter fun r => r.lapsed b.gantryTime).foldl
          (fun s r => missAll (lapseReason r.station s) [r] s) { b with dueTimer := none } =
          lapsed.foldl (fun s r => missAll (reason r s) [r] s) a := by
        rw [← hreason]; rfl
      rw [exec_dueTimerExpiry, event_of_live hlive, if_pos h, dueExpiry_eq hfold]
      rfl
    refine ⟨fun h hnone => ?_, fun r h hone => ?_, hexpiry, fun h => ?_⟩
    · have hall := hexpiry h
      rw [hnone] at hall
      exact hall
    · have hmem : r ∈ b.schedule := (List.mem_filter.1 (show r ∈ lapsed by rw [hone]; exact List.mem_singleton_self r)).1
      have hmiss : missAll (reason r a) [r] a = declareMiss true (reason r a) r a := by
        rw [missAll_cons_of_waiting (s := a) (List.any_eq_true.2 ⟨r, hmem, sameKey_self r⟩), missAll_nil]
      have hall := hexpiry h
      rw [hone, List.foldl_cons, List.foldl_nil, hmiss] at hall
      exact hall
    · rw [exec_dueTimerExpiry, event_of_live hlive, if_neg (by rw [h]; decide)]
  case earliest =>
    intro instant
    exact ⟨fun h => by rw [h]; rfl, fun hne hrange => earliestInstant_spec upTo base hne hrange⟩

/-! ## Misses (R53, R56, R65) -/

/-- A miss by the state in which its cause and its record are placed. -/
theorem declareMiss_of_live {placed : Bool} {reason : MissReason} {r : Request} {s b c : State}
    (hb : raise (missCause reason r s) s = b) (hc : (handRecord (.capture (missRecord reason r b)) b).1 = c)
    (hlive : c.device ≠ .failed) : declareMiss placed reason r s =
      if r.pid = 0 then testEnded r.station (outcomeByte (.missed reason) false) 0 (if placed then unschedule r c else c)
      else if placed then account r.pid r.sighting (if placed then unschedule r c else c)
      else if placed then unschedule r c else c := by
  unfold declareMiss
  dsimp only
  rw [hb, hc]
  exact if_neg hlive

theorem outcomeByte_missed (reason : MissReason) : outcomeByte (.missed reason) false = byteOf (1 + 4 * reason.code) := by
  cases reason <;> rfl

theorem any_sameKey_iff (r : Request) (l : List Request) : l.any (sameKey r) = true ↔
    ∃ q ∈ l, q.pid = r.pid ∧ q.sighting = r.sighting ∧ q.station = r.station := by
  simp only [List.any_eq_true, sameKey, Bool.and_eq_true, beq_iff_eq, and_assoc, eq_comm (a := r.pid),
    eq_comm (a := r.sighting), eq_comm (a := r.station)]

/-- Settles O38: the miss by whether the request was placed and whether it is a test's; the list by its head. -/
theorem missOfPlacedRequest : Obligations.MissOfPlacedRequest := by
  unfold Obligations.MissOfPlacedRequest
  refine ⟨fun r reason s => ?miss, fun r s => rfl, fun reason s => ⟨fun pid => rfl, rfl, fun r rest => ?all⟩⟩
  case miss =>
    intro b c ended hlive
    have hmiss := fun placed : Bool => declareMiss_of_live (placed := placed) (reason := reason) (r := r) (s := s) (b := b)
      (c := c) rfl rfl hlive
    have hended : ∀ u : State, testEnded r.station (outcomeByte (.missed reason) false) 0 u = ended u := fun u => by
      rw [outcomeByte_missed]; rfl
    refine ⟨fun hid => ?_, fun hid => ?_, fun hid => ?_, fun hid => ?_⟩
    · exact (hmiss true).trans (if_neg hid)
    · exact (hmiss true).trans ((if_pos hid).trans (hended _))
    · exact (hmiss false).trans (if_neg hid)
    · exact (hmiss false).trans ((if_pos hid).trans (hended _))
  case all =>
    intro waits
    have hwaits := any_sameKey_iff r s.schedule
    exact ⟨fun h => missAll_cons_of_waiting (hwaits.2 h), fun h => missAll_cons_of_gone fun hc => h (hwaits.1 hc)⟩

end Sys2Proof.Machine
end

section
/-! PROOFS. Causes and the full queues of the report writer (08, R158-R171; 10, R202-R210). -/

namespace Sys2Proof.Machine

open Sys2Proof

/-! ## The routing of a cause (R207-R209) -/

theorem unrouted_iff (c : CauseCode) (s : State) : unrouted c s = true ↔ c.num = 0 ∨ s.routingLimit ≤ c.num := by
  simp [unrouted]

/-- The note of a cause, with the code and the original code that its routing gives it. -/
def noteWith (c : Cause) (s : State) (code : CauseCode) (original : Option CauseCode) : FaultNote :=
  { code := code, cls := c.code.cls, original := original, time := s.gantryTime, track := c.track
    station := c.station, unit := c.unit, pid := c.pid, detail := c.detail }

/-- A note is placed and the causes that its placing brings are raised. -/
def afterNote (x : FaultNote) (s : State) : State :=
  (placeOnce (.faultNote x) s).2.2.foldl (fun s c => raise c s) (placeOnce (.faultNote x) s).1

section
variable {c : Cause} {s : State}

theorem routeOf_of_unrouted (h : unrouted c.code s = true) : routeOf c.code s = { note := true, signal := true } := if_pos h

theorem routeOf_of_entry {entry : Routing} (h : ¬unrouted c.code s = true) (hentry : s.routing[c.code.num]? = some entry) :
    routeOf c.code s = entry := by
  rw [routeOf, if_neg h, List.getD_eq_getElem?_getD, hentry]
  rfl

theorem noteOf_of_unrouted (h : unrouted c.code s = true) : noteOf c s = noteWith c s .unrouted (some c.code) := by
  unfold noteOf
  rw [if_pos h, if_pos h]
  rfl

theorem noteOf_of_routed (h : ¬unrouted c.code s = true) : noteOf c s = noteWith c s c.code none := by
  unfold noteOf
  rw [if_neg h, if_neg h]
  rfl

theorem raise_of_noted (hlive : s.device ≠ .failed) (hcls : c.code.cls ≠ .fatal) (hnote : (routeOf c.code s).note = true) :
    raise c s = if (routeOf c.code s).signal then latchFault (afterNote (noteOf c s) s) else afterNote (noteOf c s) s := by
  rw [raise_eq c hlive hcls]
  dsimp only
  rw [if_pos hnote]
  rfl

theorem raise_of_not_noted (hlive : s.device ≠ .failed) (hcls : c.code.cls ≠ .fatal) (hnote : (routeOf c.code s).note = false) :
    raise c s = if (routeOf c.code s).signal then latchFault s else s := by
  rw [raise_eq c hlive hcls]
  dsimp only
  rw [if_neg (c := (routeOf c.code s).note = true) (by rw [hnote]; decide)]

end

/-! ## FATAL causes and DOUBLE FAULT (R163, R202) -/

theorem failReasonOf_eq (c : CauseCode) : failReasonOf c = if c = .doubleFault then .doubleFault else .fatalCause := by
  cases c <;> rfl

theorem enterFailed_of_live {reason : FailReason} {s : State} (h : s.device ≠ .failed) : enterFailed reason s =
    hush (stopCardWrite true (latchFailed { s with device := .failed, failReason := reason })) := if_neg h

/-- With eight held records a note meets DOUBLE FAULT (R163, R210). -/
theorem afterNote_of_full {x : FaultNote} {s : State} (hlive : s.device ≠ .failed) (h : 8 ≤ s.writer.held.length) :
    afterNote x s = hush (stopCardWrite true (latchFailed { s with device := .failed, failReason := .doubleFault })) := by
  have hheld : (!s.writer.held.isEmpty || s.base == 0) = true := by
    cases hw : s.writer.held with
    | nil => rw [hw] at h; exact absurd h (by decide)
    | cons r rest => rfl
  have hplace : placeOnce (.faultNote x) s = (s, .discarded, [writerCause .doubleFault none]) := by
    rw [placeOnce, if_neg hlive, if_pos hheld, holdRecord_note, if_neg (Nat.not_lt.2 h)]
  rw [afterNote, hplace]
  change raise (writerCause .doubleFault none) s = _
  rw [raise_of_fatal hlive rfl]
  exact enterFailed_of_live hlive

/-- Settles O39: a cause by its routing entry, or by none; a fatal cause enters FAILED. -/
theorem causesTaken : Obligations.CausesTaken := by
  unfold Obligations.CausesTaken
  refine ⟨fun c s hlive hcls => ?_, fun c s => ⟨raise_of_failed c, fun hlive hfatal => ?_⟩, by decide⟩
  · intro note noted double
    refine ⟨fun hunrouted => ?_, fun entry hnum hlimit hentry => ?_⟩
    · have h := (unrouted_iff c.code s).2 hunrouted
      have hraise : raise c s = latchFault (afterNote (noteWith c s .unrouted (some c.code)) s) := by
        rw [raise_of_noted hlive hcls (by rw [routeOf_of_unrouted h]), routeOf_of_unrouted h, noteOf_of_unrouted h]
        exact if_pos rfl
      exact ⟨hraise, fun hfull => hraise.trans (congrArg latchFault (afterNote_of_full hlive hfull))⟩
    · have h : ¬unrouted c.code s = true := fun hc =>
        ((unrouted_iff c.code s).1 hc).elim hnum fun hle => absurd hlimit (Nat.not_lt.2 hle)
      have hroute : routeOf c.code s = entry := routeOf_of_entry h hentry
      refine ⟨fun hnote => ?_, fun hnote => ?_⟩
      · have hraise : raise c s = if entry.signal then latchFault (afterNote (noteWith c s c.code none) s)
            else afterNote (noteWith c s c.code none) s := by
          rw [raise_of_noted hlive hcls (by rw [hroute]; exact hnote), hroute, noteOf_of_routed h]
        exact ⟨hraise, fun hfull => by rw [hraise, afterNote_of_full hlive hfull]⟩
      · rw [raise_of_not_noted hlive hcls (by rw [hroute]; exact hnote), hroute]
  · rw [raise_of_fatal hlive hfatal, enterFailed_of_live hlive, failReasonOf_eq]

/-! ## The held record queue (R158-R163, R171) -/

theorem isNote_iff (r : Record) : r.isNote = true ↔ ∃ note, r = .faultNote note := by
  cases r <;> simp [Record.isNote]

theorem hasRoom_iff (r : Record) (held : List Record) : hasRoom r held = true ↔
    held.length < 8 ∧ (r.isNote = true ∨ (held.filter fun x => !x.isNote).length < 6) := by
  unfold hasRoom
  by_cases h : r.isNote = true
  · simp [h]
  · rw [if_neg h]; simp [h]

section
variable {r : Record} {full : Option RowId} {s : State}

theorem holdRecord_of_room (h : hasRoom r s.writer.held = true) :
    holdRecord r full s = ({ s with writer := { s.writer with held := s.writer.held ++ [r] } }, .held,
      (full.map fun row => writerCause .logFull (some row.val)).toList) := by
  unfold holdRecord
  rw [if_pos h]
  cases full <;> rfl

theorem holdRecord_of_full_note (h : ¬hasRoom r s.writer.held = true) (hnote : r.isNote = true) :
    holdRecord r full s = (s, .discarded, [writerCause .doubleFault none]) := by
  unfold holdRecord
  rw [if_neg h, if_pos hnote]

theorem holdRecord_of_full (h : ¬hasRoom r s.writer.held = true) (hnote : r.isNote = false) : holdRecord r full s =
    ({ s with writer := { s.writer with lost := saturate (s.writer.lost + 1) } }, .lost,
      [recordLostCause r (saturate (s.writer.lost + 1))]) := by
  unfold holdRecord
  rw [if_neg h]
  exact if_neg (by rw [hnote]; decide)

theorem placeOnce_of_failed (h : s.device = .failed) : placeOnce r s = (s, .discarded, []) := if_pos h

theorem placeOnce_of_behind (hlive : s.device ≠ .failed) (h : s.writer.held ≠ [] ∨ s.base = 0) :
    placeOnce r s = holdRecord r none s := by
  refine (if_neg hlive).trans (if_pos ?_)
  rw [Bool.or_eq_true, Bool.not_eq_true', List.isEmpty_eq_false_iff, beq_iff_eq]
  exact h

theorem placeOnce_of_straight (hlive : s.device ≠ .failed) (hheld : s.writer.held = []) (hbase : s.base ≠ 0) :
    placeOnce r s = placeInRows r (fun row => holdRecord r (some row) s) s := by
  refine (if_neg hlive).trans (if_neg ?_)
  rw [Bool.or_eq_true, Bool.not_eq_true', List.isEmpty_eq_false_iff, beq_iff_eq]
  exact not_or.2 ⟨not_not.2 hheld, hbase⟩

section
variable {row : RowId} {onFull : RowId → State × Placement × List Cause}

theorem placeInRows_of_free (h : readRows s (rowsFrom s.writer.rowCursor r.bodies.length) = .free) :
    placeInRows r onFull s = writeRecord r s := by
  rw [placeInRows, h]

theorem placeInRows_of_blocked (h : readRows s (rowsFrom s.writer.rowCursor r.bodies.length) = .blocked row) :
    placeInRows r onFull s = onFull row := by
  rw [placeInRows, h]

theorem placeInRows_of_busError (h : readRows s (rowsFrom s.writer.rowCursor r.bodies.length) = .busError row) :
    placeInRows r onFull s = (s, .discarded, [writerCause .rowWrite (some row.val)]) := by
  rw [placeInRows, h]

end

end

/-! ## The notice queue (R166) -/

section
variable {row : RowId} {s : State}

theorem appendNotice_of_queued (h : row ∈ s.writer.notices) : appendNotice row s = (s, false) :=
  if_pos (List.contains_iff_mem.2 h)

theorem appendNotice_of_room (h : row ∉ s.writer.notices) (hroom : s.writer.notices.length < 64) :
    appendNotice row s =
      (withIrq (fun s => { s with writer := { s.writer with notices := s.writer.notices ++ [row] } }) s, false) :=
  (if_neg fun hc => h (List.contains_iff_mem.1 hc)).trans (if_pos hroom)

theorem appendNotice_of_overflowed (h : row ∉ s.writer.notices) (hfull : 64 ≤ s.writer.notices.length)
    (hoverflow : s.writer.overflow = true) : appendNotice row s = (s, false) :=
  (if_neg fun hc => h (List.contains_iff_mem.1 hc)).trans ((if_neg (Nat.not_lt.2 hfull)).trans (if_pos hoverflow))

theorem appendNotice_of_full (h : row ∉ s.writer.notices) (hfull : 64 ≤ s.writer.notices.length)
    (hoverflow : s.writer.overflow = false) :
    appendNotice row s = ({ s with writer := { s.writer with overflow := true } }, true) :=
  (if_neg fun hc => h (List.contains_iff_mem.1 hc)).trans
    ((if_neg (Nat.not_lt.2 hfull)).trans (if_neg (by rw [hoverflow]; decide)))

end

/-- Settles O41: the room of the held queue and of the notices decides. -/
theorem fullQueuesOfTheWriter : Obligations.FullQueuesOfTheWriter := by
  unfold Obligations.FullQueuesOfTheWriter
  refine ⟨isNote_iff, fun r full s => ?held, fun r s => ?placed, fun row s =>
    ⟨appendNotice_of_queued, appendNotice_of_room, appendNotice_of_full, appendNotice_of_overflowed⟩⟩
  case held =>
    intro held room lost
    have hroom := hasRoom_iff r s.writer.held
    refine ⟨fun h => ?_, fun h hnote => holdRecord_of_full_note (fun hc => h (hroom.1 hc)) hnote, fun h hother => ?_⟩
    · rw [holdRecord_of_room (hroom.2 h)]
      cases full <;> rfl
    · rw [holdRecord_of_full (fun hc => h (hroom.1 hc)) hother]
      exact ⟨rfl, rfl, by cases r <;> rfl⟩
  case placed =>
    intro read straight
    exact ⟨placeOnce_of_failed, placeOnce_of_behind,
      fun ⟨hlive, hheld, hbase⟩ hread => (placeOnce_of_straight hlive hheld hbase).trans (placeInRows_of_free hread),
      fun row ⟨hlive, hheld, hbase⟩ hread => (placeOnce_of_straight hlive hheld hbase).trans (placeInRows_of_blocked hread),
      fun row ⟨hlive, hheld, hbase⟩ hread => (placeOnce_of_straight hlive hheld hbase).trans (placeInRows_of_busError hread),
      rfl⟩

end Sys2Proof.Machine
end

section
/-! PROOFS. The layouts of the records (11.6 to 11.8, R215). -/

namespace Sys2Proof.Machine

open Sys2Proof

/-! ## Fields of a body -/

theorem getElem?_le {n i : Nat} (x : Nat) (h : i < n) : (le n x)[i]? = some (BitVec.ofNat 8 (x / 256 ^ i)) := by
  simp [le, h]

/-- A field that stands behind as many bytes as its offset says. -/
theorem rowField_of_append {body pre field post : List Byte} {off n : Nat} (hbody : body = pre ++ (field ++ post))
    (hpre : pre.length = off - 8) (hfield : field.length = n) : rowField body off n = field := by
  subst hbody hfield
  rw [rowField, ← hpre, List.drop_left, List.take_left]

theorem length_flatMap_of_const {α : Type} {f : α → List Byte} {n : Nat} (h : ∀ a, (f a).length = n) :
    ∀ l : List α, (l.flatMap f).length = n * l.length
  | [] => rfl
  | a :: l => by
    rw [List.flatMap_cons, List.length_append, h, length_flatMap_of_const h l, List.length_cons]
    ring

section
variable {header : List Byte} {f : Exposure → List Byte} {es : List Exposure} {n : Nat} (hheader : header.length = 24)
  (hf : ∀ e, (f e).length = 12)
include hheader hf

/-- The entry of an exposure stands behind the header and the entries before it (11.6). -/
theorem rowField_entry {e : Exposure} (h : es[n]? = some e) :
    rowField (padTo 120 (header ++ es.flatMap f)) (32 + 12 * n) 12 = f e := by
  obtain ⟨hn, he⟩ := List.getElem?_eq_some_iff.1 h
  have hsplit : es = es.take n ++ e :: es.drop (n + 1) := by
    rw [← he, ← List.drop_eq_getElem_cons hn, List.take_append_drop]
  have hentries : es.flatMap f = (es.take n).flatMap f ++ (f e ++ (es.drop (n + 1)).flatMap f) := by
    conv_lhs => rw [hsplit]
    rw [List.flatMap_append, List.flatMap_cons]
  refine rowField_of_append (pre := header ++ (es.take n).flatMap f)
    (post := (es.drop (n + 1)).flatMap f ++ List.replicate (120 - (header ++ es.flatMap f).length) 0) ?_ ?_ (hf e)
  · rw [padTo]
    generalize List.replicate (120 - (header ++ es.flatMap f).length) (0 : Byte) = pad
    rw [hentries]
    simp only [List.append_assoc]
  · rw [List.length_append, length_flatMap_of_const hf, hheader, List.length_take]
    omega

/-- Behind the last entry the body holds 0. -/
theorem rowField_behind_entries (hn : es.length ≤ n) (h8 : n < 8) :
    rowField (padTo 120 (header ++ es.flatMap f)) (32 + 12 * n) 12 = List.replicate 12 0 := by
  have hlength : (header ++ es.flatMap f).length = 24 + 12 * es.length := by
    rw [List.length_append, length_flatMap_of_const hf, hheader]
  have hpad : List.replicate (120 - (header ++ es.flatMap f).length) (0 : Byte) =
      List.replicate (12 * (n - es.length)) 0 ++ (List.replicate 12 0 ++ List.replicate (84 - 12 * n) 0) := by
    rw [List.replicate_append_replicate, List.replicate_append_replicate, hlength]
    congr 1
    omega
  refine rowField_of_append (pre := header ++ es.flatMap f ++ List.replicate (12 * (n - es.length)) 0)
    (post := List.replicate (84 - 12 * n) 0) ?_ ?_ List.length_replicate
  · rw [padTo, hpad, ← List.append_assoc]
  · rw [List.length_append, hlength, List.length_replicate]
    omega

end

/-! ## Exposure entries and the card base (11.6) -/

theorem length_exposureEntry (start : Time) (base : Addr) (e : Exposure) : (exposureEntry start base e).length = 12 := by
  simp only [exposureEntry, List.length_append, length_le]

theorem hasCard_iff (e : Exposure) : e.hasCard = true ↔ e.outcome = .tiled ∨ e.outcome = .failed := by
  simp [Exposure.hasCard]

/-- The distance of an entry's card from the card base, in steps of 32 bytes. -/
def cardSteps (base : Addr) (e : Exposure) : Int := (((e.card.getD 0).toNat : Int) - (base.toNat : Int)) / 32

/-- The card stands at a whole number of steps that 24 bits hold. -/
def CardWhole (base : Addr) (e : Exposure) : Prop :=
  ((e.card.getD 0).toNat : Int) = (base.toNat : Int) + 32 * cardSteps base e ∧ -8388607 ≤ cardSteps base e ∧
    cardSteps base e ≤ 8388607

theorem cardOffset_of_no_card {base : Addr} {e : Exposure} (h : ¬e.hasCard = true) : cardOffset base e = 0 := if_neg h

theorem cardOffset_of_card {base : Addr} {e : Exposure} (h : e.hasCard = true) : cardOffset base e =
    if (((e.card.getD 0).toNat : Int) - (base.toNat : Int)) % 32 = 0 ∧ -8388607 ≤ cardSteps base e ∧
      cardSteps base e ≤ 8388607 then (cardSteps base e % 16777216).toNat else 8388608 := if_pos h

theorem cardWhole_iff (base : Addr) (e : Exposure) : CardWhole base e ↔
    (((e.card.getD 0).toNat : Int) - (base.toNat : Int)) % 32 = 0 ∧ -8388607 ≤ cardSteps base e ∧
      cardSteps base e ≤ 8388607 := by
  unfold CardWhole cardSteps
  omega

theorem cardOffset_of_whole {base : Addr} {e : Exposure} (h : e.hasCard = true) (hwhole : CardWhole base e) :
    cardOffset base e = (BitVec.ofInt 24 (cardSteps base e)).toNat := by
  rw [cardOffset_of_card h, if_pos ((cardWhole_iff base e).1 hwhole), BitVec.toNat_ofInt]
  rfl

theorem cardOffset_of_not_whole {base : Addr} {e : Exposure} (h : e.hasCard = true) (hwhole : ¬CardWhole base e) :
    cardOffset base e = (BitVec.ofInt 24 (-8388608)).toNat := by
  rw [cardOffset_of_card h, if_neg fun hc => hwhole ((cardWhole_iff base e).2 hc)]
  rfl

theorem mul_boolNat (k : Nat) (b : Bool) : k * boolNat b = if b then k else 0 := by
  cases b
  · exact Nat.mul_zero k
  · exact Nat.mul_one k

theorem boolNat_eq (b : Bool) : boolNat b = if b then 1 else 0 := rfl

theorem cardBase_of_none {es : List Exposure} (h : ∀ e ∈ es, ¬(e.outcome = .tiled ∨ e.outcome = .failed)) :
    cardBase es = 0xFFFFFFFFFFFFFFFF := by
  have hfind : es.find? Exposure.hasCard = none :=
    List.find?_eq_none.2 fun e he hc => h e he ((hasCard_iff e).1 hc)
  rw [cardBase, hfind]
  rfl

theorem cardBase_of_first {before after : List Exposure} {e : Exposure} {a : Addr}
    (hbefore : ∀ x ∈ before, ¬(x.outcome = .tiled ∨ x.outcome = .failed)) (he : e.outcome = .tiled ∨ e.outcome = .failed)
    (ha : e.card = some a) : cardBase (before ++ e :: after) = a := by
  have hfind : (before ++ e :: after).find? Exposure.hasCard = some e := by
    rw [List.find?_append, List.find?_eq_none.2 fun x hx hc => hbefore x hx ((hasCard_iff x).1 hc), Option.none_or,
      List.find?_cons_of_pos ((hasCard_iff e).2 he)]
  rw [cardBase, hfind]
  exact congrArg (Option.getD · _) ha

end Sys2Proof.Machine
end

section
/-! PROOFS. The writing of rows (R158-R160, R166). -/

namespace Sys2Proof.Machine

open Sys2Proof

/-! ## Bus writes that fail -/

/-- What a write does not reach reads as before, however much of the write lands. -/
theorem read_writeUntilError_outside (errors : List Nat) (x : Nat) : ∀ (bytes : List Byte) {m : Memory} {a : Addr},
    Memory.wf m = true → outside x a bytes.length →
    Memory.read (Memory.writeUntilError errors m a bytes).1 x = Memory.read m x
  | [], _, _, _, _ => rfl
  | b :: bs, m, a, hwf, hx => by
    unfold Memory.writeUntilError
    split
    · rfl
    · have hfirst : x ≠ a.toNat := by
        have h := hx 0 (Nat.succ_pos _)
        rwa [offsetAddr_zero] at h
      have hrest : outside x (a + 1) bs.length := fun i hi => by
        rw [offsetAddr_succ]
        exact hx (i + 1) (Nat.succ_lt_succ hi)
      exact (read_writeUntilError_outside errors x bs (Memory.wf_write _ _ hwf) hrest).trans
        ((Memory.read_write _ _ _ hwf).trans (if_neg hfirst))

theorem writeUntilError_of_first {errors : List Nat} {m : Memory} {a : Addr} {b : Byte} {bs : List Byte}
    (h : a.toNat ∈ errors) : Memory.writeUntilError errors m a (b :: bs) = (m, 0) := by
  rw [Memory.writeUntilError, if_pos (List.contains_iff_mem.2 h)]

theorem outside_of_subset {x : Nat} {a : Addr} {i n len : Nat} (h : outside x a len) (hin : i + n ≤ len) :
    outside x (offsetAddr a i) n := fun j hj => by
  rw [offsetAddr_offsetAddr]
  exact h (i + j) (by omega)

theorem outside_self {a : Addr} {n : Nat} (hn : n < 2 ^ 64) : outside a.toNat (offsetAddr a 1) n := by
  have h := outside_offsetAddr a (i := 0) (j := 1) (n := n) (by omega) (by omega) fun k _ => by omega
  rwa [offsetAddr_zero] at h

/-! ## One row -/

theorem length_rowBytes (kind part lost : Nat) (sequence : BitVec 32) {body : List Byte} (h : body.length ≤ 120) :
    (rowBytes kind part lost sequence body).length = 127 := by
  simp only [rowBytes, List.length_append, List.length_cons, length_le, length_padTo h]

/-- The state of the notice queue, the overflow flag and the row that set it, with one more row number (R166). -/
def queueNotice (n : List RowId × Bool × Option RowId) (row : RowId) : List RowId × Bool × Option RowId :=
  if row ∈ n.1 then n else if n.1.length < 64 then (n.1 ++ [row], n.2.1, n.2.2)
  else if n.2.1 = true then n else (n.1, true, some row)

/-- The writer with a notice queue. -/
def withNotices (n : List RowId × Bool × Option RowId) (w : ReportWriter) : ReportWriter :=
  { w with notices := n.1, overflow := n.2.1 }

theorem withIrq_frame {f : State → State} {s : State} : ∃ outputs, withIrq f s = { f s with outputs := outputs } := by
  unfold withIrq
  split
  · exact ⟨_, rfl⟩
  · exact ⟨_, rfl⟩

theorem appendNotice_spec (row : RowId) (unqueued : Option RowId) (s : State) :
    ∃ outputs, (appendNotice row s).1 = { s with
        outputs := outputs
        writer := withNotices (queueNotice (s.writer.notices, s.writer.overflow, unqueued) row) s.writer } ∧
      (if (appendNotice row s).2 then some row else unqueued) =
        (queueNotice (s.writer.notices, s.writer.overflow, unqueued) row).2.2 := by
  by_cases hin : row ∈ s.writer.notices
  · rw [appendNotice_of_queued hin, queueNotice, if_pos hin]
    exact ⟨s.outputs, rfl, rfl⟩
  · by_cases hroom : s.writer.notices.length < 64
    · rw [appendNotice_of_room hin hroom, queueNotice, if_neg hin, if_pos hroom]
      obtain ⟨outputs, h⟩ := withIrq_frame (s := s)
        (f := fun s => { s with writer := { s.writer with notices := s.writer.notices ++ [row] } })
      exact ⟨outputs, h, rfl⟩
    · have hfull := Nat.not_lt.1 hroom
      by_cases hoverflow : s.writer.overflow = true
      · rw [appendNotice_of_overflowed hin hfull hoverflow, queueNotice, if_neg hin, if_neg hroom, if_pos hoverflow]
        exact ⟨s.outputs, rfl, rfl⟩
      · rw [appendNotice_of_full hin hfull (Bool.eq_false_iff.2 hoverflow), queueNotice, if_neg hin, if_neg hroom,
          if_neg hoverflow]
        exact ⟨s.outputs, rfl, rfl⟩

/-- The two writes of a row, header and body first, then the state byte. -/
def rowWrites (kind part lost : Nat) (sequence : BitVec 32) (a : Addr) (body : List Byte) : List Output :=
  [.hostWrite (offsetAddr a 1) (rowBytes kind part lost sequence body), .hostWrite a [1]]

/-- A row to which no address answers with an error is written whole. -/
theorem rowWrites_land {kind part lost : Nat} {sequence : BitVec 32} {row : RowId} {body : List Byte} {s : State}
    (hwf : Memory.wf s.mem = true) (hbody : body.length ≤ 120)
    (hgood : ∀ i, i < 128 → (offsetAddr (rowAddr row s) i).toNat ∉ s.writeErrors) :
    ∃ mem, Memory.wf mem = true ∧
      (busWrite (offsetAddr (rowAddr row s) 1) (rowBytes kind part lost sequence body) s).2 = true ∧
      busWrite (rowAddr row s) [1] (busWrite (offsetAddr (rowAddr row s) 1) (rowBytes kind part lost sequence body) s).1 =
        ({ s with mem := mem, outputs := s.outputs ++ rowWrites kind part lost sequence (rowAddr row s) body }, true) ∧
      (∀ i, i < 128 → Memory.read mem (offsetAddr (rowAddr row s) i).toNat =
        (1 :: rowBytes kind part lost sequence body).getD i 0) ∧
      ∀ x, outside x (rowAddr row s) 128 → Memory.read mem x = Memory.read s.mem x := by
  have hlength := length_rowBytes kind part lost sequence hbody
  generalize rowAddr row s = a at hgood ⊢
  obtain ⟨mem1, hwf1, hwrite1, -, hreads1, hothers1⟩ := busWrite_of_writable
    (a := offsetAddr a 1) (bytes := rowBytes kind part lost sequence body) hwf (by rw [hlength]; omega)
    fun i hi => by rw [offsetAddr_offsetAddr]; exact hgood (1 + i) (by omega)
  rw [hlength] at hreads1 hothers1
  generalize hu : ({ s with mem := mem1, outputs := s.outputs ++
    [.hostWrite (offsetAddr a 1) (rowBytes kind part lost sequence body)] } : State) = u at hwrite1
  obtain ⟨mem2, hwf2, hwrite2, -, hreads2, hothers2⟩ := busWrite_of_writable (a := a) (bytes := [1]) (s := u)
    (by subst hu; exact hwf1) (by decide) fun i hi => by subst hu; exact hgood i (by simp at hi; omega)
  have humem : u.mem = mem1 := by subst hu; rfl
  rw [humem] at hothers2
  refine ⟨mem2, hwf2, by rw [hwrite1], ?_, fun i hi => ?_, fun x hx => ?_⟩
  · rw [hwrite1, hwrite2]
    subst hu
    simp only [rowWrites, List.append_assoc, List.cons_append, List.nil_append]
  · cases i with
    | zero => exact hreads2 0 (by decide)
    | succ i =>
      have hapart : outside (offsetAddr a (i + 1)).toNat a 1 := by
        have h := outside_offsetAddr a (i := i + 1) (j := 0) (n := 1) (by omega) (by omega) fun k hk => by omega
        rwa [offsetAddr_zero] at h
      rw [hothers2 _ hapart, List.getD_cons_succ, ← hreads1 i (by omega), offsetAddr_offsetAddr, Nat.add_comm 1 i]
  · rw [hothers2 x fun i hi => hx i (by simp at hi; omega)]
    exact hothers1 x (outside_of_subset hx (by omega))

/-! ## The rows of a record -/

/-- Rows of different numbers stand apart in the exchange area (11.1). -/
theorem outside_rowAddr {row row' : RowId} {s : State} {i : Nat} (hne : row ≠ row') (hi : i < 128) :
    outside (offsetAddr (rowAddr row s) i).toNat (rowAddr row' s) 128 := by
  unfold rowAddr
  rw [offsetAddr_offsetAddr]
  have hval : row.val ≠ row'.val := fun h => hne (Fin.ext h)
  have := row.isLt
  have := row'.isLt
  exact outside_offsetAddr _ (by omega) (by omega) fun k hk => by omega

theorem nodup_rowsFrom (cursor : RowId) {n : Nat} (h : n ≤ 512) : (rowsFrom cursor n).Nodup := by
  refine (List.nodup_range).map_on fun i hi j hj hij => ?_
  have hi' := List.mem_range.1 hi
  have hj' := List.mem_range.1 hj
  have hval := congrArg Fin.val (add_left_cancel hij)
  simp only [Fin.ofNat] at hval
  omega

theorem writeRows_nil (kind lost : Nat) (sequence : BitVec 32) (part : Nat) (unqueued : Option RowId) (s : State) :
    writeRows kind lost sequence [] part unqueued s = (s, .all unqueued) := rfl

section
variable {kind lost part : Nat} {sequence : BitVec 32} {row : RowId} {body : List Byte} {rest : List (RowId × List Byte)}
  {unqueued : Option RowId} {s t : State}

theorem writeRows_cons_of_landed
    (hfirst : (busWrite (offsetAddr (rowAddr row s) 1) (rowBytes kind part lost sequence body) s).2 = true)
    (hstate : busWrite (rowAddr row s) [1]
      (busWrite (offsetAddr (rowAddr row s) 1) (rowBytes kind part lost sequence body) s).1 = (t, true)) :
    writeRows kind lost sequence ((row, body) :: rest) part unqueued s =
      writeRows kind lost sequence rest (part + 1) (if (appendNotice row t).2 then some row else unqueued)
        (appendNotice row t).1 := by
  conv_lhs => unfold writeRows
  dsimp only
  rw [if_pos hfirst, hstate]
  exact if_pos rfl

theorem writeRows_cons_of_body_error
    (hfirst : ¬(busWrite (offsetAddr (rowAddr row s) 1) (rowBytes kind part lost sequence body) s).2 = true) :
    writeRows kind lost sequence ((row, body) :: rest) part unqueued s =
      ((busWrite (offsetAddr (rowAddr row s) 1) (rowBytes kind part lost sequence body) s).1, .busError row) := by
  unfold writeRows
  exact if_neg hfirst

theorem writeRows_cons_of_state_error
    (hfirst : (busWrite (offsetAddr (rowAddr row s) 1) (rowBytes kind part lost sequence body) s).2 = true)
    (hstate : busWrite (rowAddr row s) [1]
      (busWrite (offsetAddr (rowAddr row s) 1) (rowBytes kind part lost sequence body) s).1 = (t, false)) :
    writeRows kind lost sequence ((row, body) :: rest) part unqueued s =
      ((if (takeFreeBit t).1 then
        { (takeFreeBit t).2 with mem := Memory.write (takeFreeBit t).2.mem (rowAddr row s).toNat 1 }
        else (takeFreeBit t).2), .busError row) := by
  unfold writeRows
  dsimp only
  rw [if_pos hfirst, hstate]
  exact if_neg Bool.false_ne_true

end

/-- Rows to which no address answers with an error are written, in order, each with its part number. -/
theorem writeRows_spec (kind lost : Nat) (sequence : BitVec 32) : ∀ (rows : List (RowId × List Byte)) (part : Nat)
    (unqueued : Option RowId) (s : State), Memory.wf s.mem = true → s.writeErrors = [] →
    (rows.map Prod.fst).Nodup → (∀ r ∈ rows, r.2.length ≤ 120) →
    let n := (rows.map Prod.fst).foldl queueNotice (s.writer.notices, s.writer.overflow, unqueued)
    ∃ mem outputs, writeRows kind lost sequence rows part unqueued s =
        ({ s with mem := mem, outputs := outputs, writer := withNotices n s.writer }, .all n.2.2) ∧
      (∀ i row body, rows[i]? = some (row, body) → ∀ j, j < 128 → Memory.read mem (offsetAddr (rowAddr row s) j).toNat =
        (1 :: rowBytes kind (part + i) lost sequence body).getD j 0) ∧
      ∀ x, (∀ r ∈ rows, outside x (rowAddr r.1 s) 128) → Memory.read mem x = Memory.read s.mem x
  | [], part, unqueued, s, _, _, _, _ => ⟨s.mem, s.outputs, rfl, fun i row body h => by simp at h, fun _ _ => rfl⟩
  | (row, body) :: rest, part, unqueued, s, hwf, herrors, hnodup, hbodies => by
    obtain ⟨hbody, hrestBodies⟩ := List.forall_mem_cons.1 hbodies
    obtain ⟨hfresh, hrestNodup⟩ := List.nodup_cons.1 hnodup
    obtain ⟨mem, hwf', hfirst, hstate, hreads, hothers⟩ := rowWrites_land (kind := kind) (part := part) (lost := lost)
      (sequence := sequence) (row := row) hwf hbody fun i _ => by rw [herrors]; exact List.not_mem_nil
    rw [writeRows_cons_of_landed hfirst hstate]
    generalize ht : ({ s with mem := mem, outputs := s.outputs ++ rowWrites kind part lost sequence (rowAddr row s) body } : State) = t
    obtain ⟨outputs, hnotice, hunqueued⟩ := appendNotice_spec row unqueued t
    rw [hunqueued]
    generalize hn1 : queueNotice (t.writer.notices, t.writer.overflow, unqueued) row = n1 at hnotice
    generalize hu : (appendNotice row t).1 = u at hnotice
    have huwf : Memory.wf u.mem = true := by subst hnotice ht; exact hwf'
    have huerrors : u.writeErrors = [] := by subst hnotice ht; exact herrors
    obtain ⟨mem', outputs', hwritten, hreads', hothers'⟩ :=
      writeRows_spec kind lost sequence rest (part + 1) n1.2.2 u huwf huerrors hrestNodup hrestBodies
    have haddr : ∀ row', rowAddr row' u = rowAddr row' s := fun row' => by subst hnotice ht; rfl
    have humem : u.mem = mem := by subst hnotice ht; rfl
    have hqueue : (u.writer.notices, u.writer.overflow, n1.2.2) = n1 := by subst hnotice; rfl
    simp only [haddr, humem] at hreads' hothers'
    rw [hqueue] at hwritten
    refine ⟨mem', outputs', ?_, fun i row' body' hi j hj => ?_, fun x hx => ?_⟩
    · rw [hwritten]
      subst hnotice hn1 ht
      rfl
    · cases i with
      | zero =>
        obtain ⟨rfl, rfl⟩ := Prod.mk.inj (Option.some.inj hi)
        rw [hothers' _ fun r hr => outside_rowAddr (fun h => hfresh (List.mem_map.2 ⟨r, hr, h.symm⟩)) hj]
        exact hreads j hj
      | succ i =>
        have h := hreads' i row' body' hi j hj
        rwa [Nat.add_assoc, Nat.add_comm 1 i] at h
    · obtain ⟨hrow, hrest⟩ := List.forall_mem_cons.1 hx
      rw [hothers' x hrest]
      exact hothers x hrow

end Sys2Proof.Machine
end

section
/-! PROOFS. Records written to their rows, and the bus errors they meet (R158-R160, R166, R170). -/

namespace Sys2Proof.Machine

open Sys2Proof

/-! ## A record whose rows are written -/

theorem length_bodies_le (r : Record) : r.bodies.length ≤ 512 := by
  cases r <;> simp [Record.bodies]

/-- The rows of a record with their bodies. -/
theorem map_fst_rows (cursor : RowId) (bodies : List (List Byte)) :
    ((rowsFrom cursor bodies.length).zip bodies).map Prod.fst = rowsFrom cursor bodies.length :=
  List.map_fst_zip (by rw [length_rowsFrom])

/-- The causes of a record whose rows are written: NOTICE_OVERFLOW where a row number was not queued (R170). -/
def overflowCauses (unqueued : Option RowId) : List Cause :=
  (unqueued.map fun row => writerCause .noticeOverflow (some row.val)).toList

/-- The writer behind a record: the lost count 0, the sequence and the cursor advanced (R158, R159). -/
def advanced (n : Nat) (w : ReportWriter) : ReportWriter :=
  { w with lost := 0, sequence := w.sequence + 1, rowCursor := w.rowCursor + Fin.ofNat 512 n }

section
variable {r : Record} {row : RowId} {unqueued : Option RowId} {s t : State}

theorem writeRecord_of_all (h : writeRows r.kindCode s.writer.lost s.writer.sequence
    ((rowsFrom s.writer.rowCursor r.bodies.length).zip r.bodies) 1 none s = (t, .all unqueued)) :
    writeRecord r s =
      ({ t with writer := advanced r.bodies.length t.writer }, .written s.writer.rowCursor, overflowCauses unqueued) := by
  unfold writeRecord
  dsimp only
  rw [h]
  cases unqueued <;> rfl

theorem writeRecord_of_busError (h : writeRows r.kindCode s.writer.lost s.writer.sequence
    ((rowsFrom s.writer.rowCursor r.bodies.length).zip r.bodies) 1 none s = (t, .busError row)) :
    writeRecord r s = (t, .discarded, [writerCause .rowWrite (some row.val)]) := by
  unfold writeRecord
  dsimp only
  rw [h]

end

/-- A row as its layout gives it (11.5): state byte, kind and part, lost count, sequence, body, filled with 0. -/
def rowImage (kind part lost : Nat) (sequence : BitVec 32) (body : List Byte) : List Byte :=
  [1, byteOf (kind + 16 * part)] ++ le 2 lost ++ le 4 sequence.toNat ++ body ++ List.replicate (120 - body.length) 0

theorem cons_rowBytes (kind part lost : Nat) (sequence : BitVec 32) (body : List Byte) :
    1 :: rowBytes kind part lost sequence body = rowImage kind part lost sequence body := by
  simp only [rowBytes, rowImage, padTo, List.append_assoc, List.cons_append, List.nil_append]

theorem busRead_of_row {a : Addr} {kind part lost : Nat} {sequence : BitVec 32} {body : List Byte} {t : State}
    (hbody : body.length ≤ 120) (h : ∀ j, j < 128 → Memory.read t.mem (offsetAddr a j).toNat =
      (1 :: rowBytes kind part lost sequence body).getD j 0) :
    busRead a 128 t = rowImage kind part lost sequence body := by
  have hlength : (1 :: rowBytes kind part lost sequence body).length = 128 := by
    rw [List.length_cons, length_rowBytes kind part lost sequence hbody]
  rw [← cons_rowBytes, ← hlength]
  exact busRead_of_reads fun i hi => h i (by omega)

theorem writeRecord_of_no_errors {r : Record} {s : State} (hwf : Memory.wf s.mem = true) (herrors : s.writeErrors = [])
    (hbodies : ∀ body ∈ r.bodies, body.length ≤ 120) :
    let rows := rowsFrom s.writer.rowCursor r.bodies.length
    let n := rows.foldl queueNotice (s.writer.notices, s.writer.overflow, none)
    ∃ mem outputs, writeRecord r s =
        ({ s with mem := mem, outputs := outputs, writer := advanced r.bodies.length (withNotices n s.writer) },
          .written s.writer.rowCursor, overflowCauses n.2.2) ∧
      (∀ i row body, rows[i]? = some row → r.bodies[i]? = some body → ∀ t : State, t.mem = mem →
        busRead (rowAddr row s) 128 t = rowImage r.kindCode (i + 1) s.writer.lost s.writer.sequence body) ∧
      ∀ x, (∀ row ∈ rows, outside x (rowAddr row s) 128) → Memory.read mem x = Memory.read s.mem x := by
  intro rows n
  have hrows : (rows.zip r.bodies).map Prod.fst = rows := map_fst_rows _ _
  obtain ⟨mem, outputs, hwritten, hreads, hothers⟩ := writeRows_spec r.kindCode s.writer.lost s.writer.sequence
    (rows.zip r.bodies) 1 none s hwf herrors (by rw [hrows]; exact nodup_rowsFrom _ (length_bodies_le r))
    fun q hq => hbodies q.2 (List.of_mem_zip hq).2
  rw [hrows] at hwritten
  refine ⟨mem, outputs, writeRecord_of_all hwritten, fun i row body hrow hbody t ht => ?_, fun x hx => ?_⟩
  · refine busRead_of_row (hbodies body (List.mem_of_getElem? hbody)) fun j hj => ?_
    rw [ht, Nat.add_comm i 1]
    exact hreads i row body (List.getElem?_zip_eq_some.2 ⟨hrow, hbody⟩) j hj
  · exact hothers x fun q hq => hx q.1 (List.of_mem_zip hq).1

theorem rowsFrom_one (cursor : RowId) : rowsFrom cursor 1 = [cursor] := by
  simp [rowsFrom]

theorem zip_of_one {r : Record} {body : List Byte} (s : State) (hone : r.bodies = [body]) :
    (rowsFrom s.writer.rowCursor r.bodies.length).zip r.bodies = [(s.writer.rowCursor, body)] := by
  rw [hone, List.length_singleton, rowsFrom_one]
  rfl

/-- The writes of a record of one row, as they leave the part. -/
def rowSent (r : Record) (body : List Byte) (s : State) : List Output :=
  s.outputs ++ rowWrites r.kindCode 1 s.writer.lost s.writer.sequence (rowAddr s.writer.rowCursor s) body

theorem writeRecord_outputs {r : Record} {body : List Byte} {s : State} (hone : r.bodies = [body])
    (hwf : Memory.wf s.mem = true) (herrors : s.writeErrors = []) (hbody : body.length ≤ 120) :
    (writeRecord r s).1.outputs = (appendNotice s.writer.rowCursor 
      { s with mem := (writeRecord r s).1.mem, outputs := rowSent r body s }).1.outputs := by
  obtain ⟨mem, -, hfirst, hstate, -, -⟩ := rowWrites_land (kind := r.kindCode) (part := 1) (lost := s.writer.lost)
    (sequence := s.writer.sequence) (row := s.writer.rowCursor) hwf hbody fun i _ => by rw [herrors]; exact List.not_mem_nil
  change _ = (({ s with mem := mem, outputs := rowSent r body s } : State), true) at hstate
  generalize ht : ({ s with mem := mem, outputs := rowSent r body s } : State) = t at hstate
  have hwritten := writeRows_cons_of_landed (rest := []) (unqueued := none) hfirst hstate
  rw [writeRows_nil, ← zip_of_one s hone] at hwritten
  rw [writeRecord_of_all hwritten]
  obtain ⟨outputs, hnotice, -⟩ := appendNotice_spec s.writer.rowCursor none t
  have hmem : (appendNotice s.writer.rowCursor t).1.mem = mem := by rw [hnotice, ← ht]
  change (appendNotice s.writer.rowCursor t).1.outputs = (appendNotice s.writer.rowCursor { s with
    mem := (appendNotice s.writer.rowCursor t).1.mem, outputs := _ }).1.outputs
  rw [hmem, ht]

/-! ## A record placed on rows that read FREE -/

theorem foldl_queueNotice_of_room : ∀ {rows notices : List RowId} {overflow : Bool} {unqueued : Option RowId},
    rows.Nodup → (∀ row ∈ rows, row ∉ notices) → notices.length + rows.length ≤ 64 →
    rows.foldl queueNotice (notices, overflow, unqueued) = (notices ++ rows, overflow, unqueued)
  | [], notices, _, _, _, _, _ => by rw [List.foldl_nil, List.append_nil]
  | row :: rest, notices, overflow, unqueued, hnodup, hfresh, hroom => by
    obtain ⟨hrow, hrest⟩ := List.nodup_cons.1 hnodup
    obtain ⟨hin, hrestFresh⟩ := List.forall_mem_cons.1 hfresh
    rw [List.length_cons] at hroom
    have hstep : queueNotice (notices, overflow, unqueued) row = (notices ++ [row], overflow, unqueued) :=
      (if_neg hin).trans (if_pos (show notices.length < 64 by omega))
    have hrestFresh' : ∀ x ∈ rest, x ∉ notices ++ [row] := fun x hx hmem => by
      rcases List.mem_append.1 hmem with h | h
      · exact hrestFresh x hx h
      · exact hrow (List.mem_singleton.1 h ▸ hx)
    have hlength : (notices ++ [row]).length + rest.length ≤ 64 := by
      rw [List.length_append, List.length_singleton]
      omega
    rw [List.foldl_cons, hstep, foldl_queueNotice_of_room hrest hrestFresh' hlength, List.append_assoc,
      List.singleton_append]

/-- A record handed to a writer whose rows all read FREE and whose notice queue has room for them (R158, R159, R166). -/
theorem handRecord_of_free {r : Record} {s : State} (hwf : Memory.wf s.mem = true) (hlive : s.device ≠ .failed)
    (hbase : s.base ≠ 0) (hheld : s.writer.held = []) (hreadErrors : s.readErrors = []) (hwriteErrors : s.writeErrors = [])
    (hfree : ∀ row ∈ rowsFrom s.writer.rowCursor r.bodies.length, busRead (rowAddr row s) 1 s = [0])
    (hfresh : ∀ row ∈ rowsFrom s.writer.rowCursor r.bodies.length, row ∉ s.writer.notices)
    (hroom : s.writer.notices.length + r.bodies.length ≤ 64) (hbodies : ∀ body ∈ r.bodies, body.length ≤ 120) :
    let rows := rowsFrom s.writer.rowCursor r.bodies.length
    ∃ mem outputs, handRecord r s = ({ s with mem := mem, outputs := outputs, writer := { s.writer with
          rowCursor := s.writer.rowCursor + Fin.ofNat 512 r.bodies.length, sequence := s.writer.sequence + 1, lost := 0
          notices := s.writer.notices ++ rows } }, .written s.writer.rowCursor) ∧
      (∀ i row body, rows[i]? = some row → r.bodies[i]? = some body → ∀ t : State, t.mem = mem →
        busRead (rowAddr row s) 128 t = rowImage r.kindCode (i + 1) s.writer.lost s.writer.sequence body) ∧
      ∀ x, (∀ row ∈ rows, outside x (rowAddr row s) 128) → Memory.read mem x = Memory.read s.mem x := by
  intro rows
  obtain ⟨mem, outputs, hwritten, hreads, hothers⟩ := writeRecord_of_no_errors (r := r) hwf hwriteErrors hbodies
  refine ⟨mem, outputs, ?_, hreads, hothers⟩
  have hread : readRows s rows = .free := readRows_of_free (fun row _ => by rw [hreadErrors]; exact List.not_mem_nil) hfree
  have hqueue := foldl_queueNotice_of_room (overflow := s.writer.overflow) (unqueued := none)
    (nodup_rowsFrom s.writer.rowCursor (length_bodies_le r)) hfresh (by rw [length_rowsFrom]; exact hroom)
  rw [handRecord, placeOnce_of_straight hlive hheld hbase, placeInRows_of_free hread, hwritten, hqueue]
  rfl

/-! ## Bus errors at the write of a row (R160) -/

theorem rowWrites_whole_iff {kind part lost : Nat} {sequence : BitVec 32} {row : RowId} {body : List Byte} {s : State}
    (hbody : body.length ≤ 120) :
    ((busWrite (offsetAddr (rowAddr row s) 1) (rowBytes kind part lost sequence body) s).2 = true ↔
      ∀ i, 1 ≤ i → i < 128 → (offsetAddr (rowAddr row s) i).toNat ∉ s.writeErrors) ∧
    ((busWrite (rowAddr row s) [1]
        (busWrite (offsetAddr (rowAddr row s) 1) (rowBytes kind part lost sequence body) s).1).2 = true ↔
      (offsetAddr (rowAddr row s) 0).toNat ∉ s.writeErrors) := by
  have hlength := length_rowBytes kind part lost sequence hbody
  refine ⟨(busWrite_whole_iff _ _ _).trans ⟨fun h i hone hi => ?_, fun h i hi => ?_⟩,
    (busWrite_whole_iff _ _ _).trans ⟨fun h => h 0 (by decide), fun h i hi => ?_⟩⟩
  · have hi' := h (i - 1) (by omega)
    rwa [offsetAddr_offsetAddr, Nat.add_sub_cancel' hone] at hi'
  · rw [offsetAddr_offsetAddr]
    exact h (1 + i) (by omega) (by omega)
  · obtain rfl : i = 0 := by simp at hi; exact hi
    exact h

/-- An address of the row answers a write with an error. -/
def RowBad (s : State) (row : RowId) : Prop := ∃ i, i < 128 ∧ (offsetAddr (rowAddr row s) i).toNat ∈ s.writeErrors

theorem rowBad_congr {s t : State} (hbase : t.base = s.base) (herrors : t.writeErrors = s.writeErrors) (row : RowId) :
    RowBad t row ↔ RowBad s row := by
  unfold RowBad rowAddr
  rw [hbase, herrors]

/-- The rows are written up to the first with a bus error; of the writer only the notice queue moves. -/
theorem writeRows_outcome (kind lost : Nat) (sequence : BitVec 32) : ∀ (rows : List (RowId × List Byte)) (part : Nat)
    (unqueued : Option RowId) (s : State), (∀ r ∈ rows, r.2.length ≤ 120) →
    let q := writeRows kind lost sequence rows part unqueued s
    ((∀ r ∈ rows, ¬RowBad s r.1) → ∃ u, q.2 = .all u) ∧
      ((∃ r ∈ rows, RowBad s r.1) → ∃ r ∈ rows, q.2 = .busError r.1) ∧
      q.1.writer = { s.writer with notices := q.1.writer.notices, overflow := q.1.writer.overflow }
  | [], part, unqueued, s, _ => ⟨fun _ => ⟨unqueued, rfl⟩, fun ⟨r, hr, _⟩ => absurd hr List.not_mem_nil, rfl⟩
  | (row, body) :: rest, part, unqueued, s, hbodies => by
    obtain ⟨hbody, hrestBodies⟩ := List.forall_mem_cons.1 hbodies
    obtain ⟨hfirst, hstate⟩ := rowWrites_whole_iff (kind := kind) (part := part) (lost := lost) (sequence := sequence)
      (row := row) (s := s) hbody
    by_cases h1 : (busWrite (offsetAddr (rowAddr row s) 1) (rowBytes kind part lost sequence body) s).2 = true
    · generalize hp : busWrite (rowAddr row s) [1]
        (busWrite (offsetAddr (rowAddr row s) 1) (rowBytes kind part lost sequence body) s).1 = p at hstate
      have hframe : p.1.writer = s.writer ∧ p.1.base = s.base ∧ p.1.writeErrors = s.writeErrors := by
        subst hp; exact ⟨rfl, rfl, rfl⟩
      obtain ⟨hwriter, hbase, herrors⟩ := hframe
      by_cases h2 : p.2 = true
      · rw [writeRows_cons_of_landed (t := p.1) h1 (by rw [hp, ← h2])]
        obtain ⟨outputs, hnotice, -⟩ := appendNotice_spec row unqueued p.1
        generalize (if (appendNotice row p.1).2 then some row else unqueued) = unqueued'
        generalize (appendNotice row p.1).1 = u at hnotice
        have hbad : ∀ row', RowBad u row' ↔ RowBad s row' :=
          rowBad_congr (by rw [hnotice]; exact hbase) (by rw [hnotice]; exact herrors)
        have hgood : ¬RowBad s row := fun ⟨i, hi, hin⟩ => by
          rcases Nat.eq_zero_or_pos i with rfl | hpos
          · exact hstate.1 h2 hin
          · exact hfirst.1 h1 i hpos hi hin
        obtain ⟨hall, hsome, hkeep⟩ := writeRows_outcome kind lost sequence rest (part + 1) unqueued' u hrestBodies
        refine ⟨fun h => hall fun r hr => ?_, fun ⟨r, hr, hb⟩ => ?_, ?_⟩
        · rw [hbad]; exact h r (List.mem_cons_of_mem _ hr)
        · rcases List.mem_cons.1 hr with rfl | hr
          · exact absurd hb hgood
          · obtain ⟨r', hr', hq⟩ := hsome ⟨r, hr, (hbad _).2 hb⟩
            exact ⟨r', List.mem_cons_of_mem _ hr', hq⟩
        · rw [hkeep, hnotice, hwriter]; rfl
      · rw [writeRows_cons_of_state_error (t := p.1) h1 (by rw [hp, ← Bool.eq_false_iff.2 h2])]
        have hbad : RowBad s row := ⟨0, by decide, Decidable.not_not.1 fun hc => h2 (hstate.2 hc)⟩
        have hfree : (if (takeFreeBit p.1).1 then
            { (takeFreeBit p.1).2 with mem := Memory.write (takeFreeBit p.1).2.mem (rowAddr row s).toNat 1 }
            else (takeFreeBit p.1).2).writer = s.writer := by
          split
          · exact hwriter
          · exact hwriter
        generalize (if (takeFreeBit p.1).1 then
          { (takeFreeBit p.1).2 with mem := Memory.write (takeFreeBit p.1).2.mem (rowAddr row s).toNat 1 }
          else (takeFreeBit p.1).2) = v at hfree
        exact ⟨fun h => absurd hbad (h (row, body) List.mem_cons_self), fun _ => ⟨(row, body), List.mem_cons_self, rfl⟩,
          by rw [hfree]⟩
    · rw [writeRows_cons_of_body_error h1]
      have hkept : (busWrite (offsetAddr (rowAddr row s) 1) (rowBytes kind part lost sequence body) s).1.writer = s.writer :=
        rfl
      generalize (busWrite (offsetAddr (rowAddr row s) 1) (rowBytes kind part lost sequence body) s).1 = v at hkept
      exact ⟨fun h => absurd (hfirst.2 fun i _ hi hin => h (row, body) List.mem_cons_self ⟨i, hi, hin⟩) h1,
        fun _ => ⟨(row, body), List.mem_cons_self, rfl⟩, by rw [hkept]⟩

/-- A record one of whose rows meets a bus error is discarded with ROW_WRITE; else it is written (R160). -/
theorem writeRecord_outcome {r : Record} {s : State} (hbodies : ∀ body ∈ r.bodies, body.length ≤ 120) :
    let rows := rowsFrom s.writer.rowCursor r.bodies.length
    let q := writeRecord r s
    ((∀ row ∈ rows, ¬RowBad s row) → q.2.1 = .written s.writer.rowCursor) ∧
      ((∃ row ∈ rows, RowBad s row) → q.2.1 = .discarded ∧
        (∃ row ∈ rows, q.2.2 = [writerCause .rowWrite (some row.val)]) ∧
        q.1.writer = { s.writer with notices := q.1.writer.notices, overflow := q.1.writer.overflow }) := by
  intro rows q
  have hrows : (rows.zip r.bodies).map Prod.fst = rows := map_fst_rows _ _
  have hmem : ∀ row, row ∈ rows ↔ ∃ p ∈ rows.zip r.bodies, p.1 = row := fun row => by
    conv_lhs => rw [← hrows]
    exact List.mem_map
  obtain ⟨hall, hsome, hkeep⟩ := writeRows_outcome r.kindCode s.writer.lost s.writer.sequence (rows.zip r.bodies) 1 none s
    fun p hp => hbodies p.2 (List.of_mem_zip hp).2
  generalize hw : writeRows r.kindCode s.writer.lost s.writer.sequence (rows.zip r.bodies) 1 none s = w at hall hsome hkeep
  refine ⟨fun h => ?_, fun ⟨row, hrow, hbad⟩ => ?_⟩
  · obtain ⟨u, hu⟩ := hall fun p hp => h p.1 ((hmem _).2 ⟨p, hp, rfl⟩)
    have hq : q = _ := writeRecord_of_all (t := w.1) (unqueued := u) (hw.trans (by rw [← hu]))
    rw [hq]
  · obtain ⟨p, hp, rfl⟩ := (hmem row).1 hrow
    obtain ⟨p', hp', hbus⟩ := hsome ⟨p, hp, hbad⟩
    have hq : q = _ := writeRecord_of_busError (t := w.1) (row := p'.1) (hw.trans (by rw [← hbus]))
    rw [hq]
    exact ⟨rfl, ⟨p'.1, (hmem _).2 ⟨p', hp', rfl⟩, rfl⟩, hkeep⟩

theorem busRead_one (a : Addr) (s : State) : busRead a 1 s = [Memory.read s.mem a.toNat] := by
  simp [busRead, offsetAddr_zero]

/-- The write of header and body leaves the state byte as it was. -/
theorem read_state_byte_after_body {r : Record} {body : List Byte} {s : State} (hwf : Memory.wf s.mem = true)
    (hbody : body.length ≤ 120) :
    Memory.read (busWrite (offsetAddr (rowAddr s.writer.rowCursor s) 1)
      (rowBytes r.kindCode 1 s.writer.lost s.writer.sequence body) s).1.mem (rowAddr s.writer.rowCursor s).toNat =
      Memory.read s.mem (rowAddr s.writer.rowCursor s).toNat :=
  read_writeUntilError_outside s.writeErrors _ _ hwf
    (by rw [length_rowBytes r.kindCode 1 s.writer.lost s.writer.sequence hbody]; exact outside_self (by omega))

section
variable {r : Record} {body : List Byte} {s : State} (hone : r.bodies = [body]) (hwf : Memory.wf s.mem = true)
  (hbody : body.length ≤ 120)
include hone hwf hbody

theorem writeRecord_of_body_error
    (h : ∃ i, 1 ≤ i ∧ i < 128 ∧ (offsetAddr (rowAddr s.writer.rowCursor s) i).toNat ∈ s.writeErrors) :
    (writeRecord r s).1 = { s with mem := (writeRecord r s).1.mem, outputs := (writeRecord r s).1.outputs } ∧
      busRead (rowAddr s.writer.rowCursor s) 1 (writeRecord r s).1 = busRead (rowAddr s.writer.rowCursor s) 1 s := by
  obtain ⟨i, hpos, hi, hbad⟩ := h
  have hread := read_state_byte_after_body (r := r) hwf hbody
  have hfirst := (rowWrites_whole_iff (kind := r.kindCode) (part := 1) (lost := s.writer.lost)
    (sequence := s.writer.sequence) (row := s.writer.rowCursor) (s := s) hbody).1
  have hrows := writeRows_cons_of_body_error (rest := []) (unqueued := none) fun hc => hfirst.1 hc i hpos hi hbad
  rw [← zip_of_one s hone] at hrows
  rw [writeRecord_of_busError hrows, busRead_one, busRead_one, hread]
  exact ⟨rfl, rfl⟩

theorem writeRecord_of_state_error
    (hgood : ∀ i, 1 ≤ i → i < 128 → (offsetAddr (rowAddr s.writer.rowCursor s) i).toNat ∉ s.writeErrors)
    (hbad : (offsetAddr (rowAddr s.writer.rowCursor s) 0).toNat ∈ s.writeErrors) :
    (writeRecord r s).1 = { s with
        mem := (writeRecord r s).1.mem, outputs := (writeRecord r s).1.outputs, freeCount := s.freeCount + 1 } ∧
      (busRead (rowAddr s.writer.rowCursor s) 1 (writeRecord r s).1 = busRead (rowAddr s.writer.rowCursor s) 1 s ∨
        busRead (rowAddr s.writer.rowCursor s) 1 (writeRecord r s).1 = [1]) := by
  have hread := read_state_byte_after_body (r := r) hwf hbody
  have hfirst := (rowWrites_whole_iff (kind := r.kindCode) (part := 1) (lost := s.writer.lost)
    (sequence := s.writer.sequence) (row := s.writer.rowCursor) (s := s) hbody).1.2 hgood
  generalize hu : (busWrite (offsetAddr (rowAddr s.writer.rowCursor s) 1)
    (rowBytes r.kindCode 1 s.writer.lost s.writer.sequence body) s).1 = u at hread
  have huerrors : u.writeErrors = s.writeErrors := by subst hu; rfl
  have huwf : Memory.wf u.mem = true := by subst hu; exact Memory.wf_writeUntilError _ _ _ hwf
  have hstate : busWrite (rowAddr s.writer.rowCursor s) [1] u =
      ({ u with outputs := u.outputs ++ [.hostWrite (rowAddr s.writer.rowCursor s) []] }, false) := by
    rw [offsetAddr_zero, ← huerrors] at hbad
    rw [busWrite, writeUntilError_of_first hbad]
    rfl
  have hrows := writeRows_cons_of_state_error (rest := []) (unqueued := none) hfirst (by rw [hu]; exact hstate)
  rw [← zip_of_one s hone] at hrows
  rw [writeRecord_of_busError hrows]
  dsimp only
  split
  · refine ⟨by subst hu; rfl, .inr ?_⟩
    rw [busRead_one]
    exact congrArg (fun b => [b]) ((Memory.read_write _ _ _ huwf).trans (if_pos rfl))
  · refine ⟨by subst hu; rfl, .inl ?_⟩
    rw [busRead_one, busRead_one]
    exact congrArg (fun b => [b]) hread

end

end Sys2Proof.Machine
end

section
/-! PROOFS. O40: the rows of a record, with the layouts and the bus errors together. -/

namespace Sys2Proof.Machine

open Sys2Proof

theorem rowsFrom_four (cursor : RowId) : rowsFrom cursor 4 =
    [cursor + Fin.ofNat 512 0, cursor + Fin.ofNat 512 1, cursor + Fin.ofNat 512 2, cursor + Fin.ofNat 512 3] := rfl

theorem getElem?_rowsFrom_eq {cursor : RowId} {n i : Nat} (h : i < n) :
    (rowsFrom cursor n)[i]? = some (cursor + Fin.ofNat 512 i) := by
  simp [rowsFrom, h]

theorem mem_rowsFrom_iff {cursor row : RowId} {n : Nat} :
    row ∈ rowsFrom cursor n ↔ ∃ i, i < n ∧ cursor + Fin.ofNat 512 i = row := by
  simp [rowsFrom]

theorem drop_le_eq_nil {n k : Nat} (x : Nat) (h : n ≤ k) : (le n x).drop k = [] :=
  List.drop_eq_nil_of_le (by rw [length_le]; exact h)

/-- An exposure entry from the length and the offset that its card gives it. -/
theorem exposureEntry_of {start : Time} {base : Addr} {e : Exposure} {length outcome unit flags offset : Nat}
    (hlength : (if e.hasCard then e.tileLength.getD 0 else 0) = length) (houtcome : e.outcome.code = outcome)
    (hunit : (e.unit.map Fin.val).getD 7 = unit)
    (hflags : boolNat e.dark + 2 * boolNat e.glared + 4 * boolNat e.clipped + 8 * boolNat e.truncated = flags)
    (hoffset : cardOffset base e = offset) : exposureEntry start base e =
      le 4 (e.length + 2048 * min (elapsed start e.start) 2097151) ++
        le 4 (length + 4194304 * outcome + 33554432 * unit + 268435456 * flags) ++
        le 4 (offset + 16777216 * e.tag.toNat) := by
  have hunit' : (e.unit.map Fin.val).getD 7 = match e.unit with | some u => u.val | none => 7 := by
    cases e.unit <;> rfl
  rw [hunit'] at hunit
  subst hlength houtcome hunit hflags hoffset
  rfl

/-- The body of a capture record by its offsets (11.6, R215). -/
theorem captureBody_layout (r : CaptureRecord) :
    (Record.capture r).bodies = [captureBody r] ∧ (Record.capture r).kindCode = 1 ∧
    let at_ := rowField (captureBody r)
    let direction := match r.dir with | some .up => 0 | some .down => 1 | none => 3
    let cls := match r.headClass with | some .raised => 0 | some .lowered => 1 | none => 3
    let outcome := match r.outcome with
      | .done => 0 | .missed reason => 1 + 4 * reason.code | .abandoned => 2 | .faulted => 3
    let base := cardBase r.exposures
    at_ 8 2 = le 2 r.pid.toNat ∧ at_ 10 1 = [byteOf (r.sighting + 16 * r.exposures.length)] ∧
    at_ 11 1 = [byteOf (r.station.val + 16 * r.track.val + 64 * direction)] ∧
    at_ 12 1 = [byteOf (r.topBeam.getD 31 + 64 * cls)] ∧
    at_ 13 1 = [byteOf (outcome + if r.unsynced then 128 else 0)] ∧
    (r.start = none → at_ 14 4 = le 4 (r.speed.getD 131071 + 131072 * 8191)) ∧
    (∀ start, r.start = some start → at_ 14 4 = le 4 (r.speed.getD 131071 + 131072 * elapsed r.due start)) ∧
    at_ 18 6 = le 6 r.due.toNat ∧ at_ 24 8 = le 8 base.toNat ∧
    (∀ n e, r.exposures[n]? = some e → at_ (32 + 12 * n) 12 = exposureEntry (r.start.getD r.due) base e) ∧
    (∀ n, r.exposures.length ≤ n → n < 8 → at_ (32 + 12 * n) 12 = List.replicate 12 0) := by
  refine ⟨rfl, rfl, ?_⟩
  intro at_ direction cls outcome base
  have hdirection : directionCode r.dir = direction := by
    change _ = (fun d : Option Direction => match d with | some .up => 0 | some .down => 1 | none => 3) r.dir
    rcases r.dir with _ | _ | _ <;> rfl
  have hcls : headClassCode r.headClass = cls := by
    change _ = (fun c : Option HeadClass => match c with | some .raised => 0 | some .lowered => 1 | none => 3) r.headClass
    rcases r.headClass with _ | _ | _ <;> rfl
  have houtcome : outcomeByte r.outcome r.unsynced = byteOf (outcome + if r.unsynced then 128 else 0) := by
    rw [← mul_boolNat]
    change _ = byteOf ((fun o : CaptureOutcome => match o with
      | .done => 0 | .missed reason => 1 + 4 * reason.code | .abandoned => 2 | .faulted => 3) r.outcome +
        128 * boolNat r.unsynced)
    unfold outcomeByte
    cases r.outcome <;> rfl
  have hlength := length_exposureEntry (r.start.getD r.due) base
  rw [← hdirection, ← hcls, ← houtcome]
  refine ⟨rfl, rfl, rfl, rfl, rfl, fun hstart => ?_, fun start hstart => ?_, rfl, rfl,
    fun n e he => rowField_entry rfl hlength he, fun n hn h8 => rowField_behind_entries rfl hlength hn h8⟩
  · have hfield : at_ 14 4 = le 4 (r.speed.getD 131071 +
        131072 * (match r.start with | some t => elapsed r.due t | none => 8191)) := rfl
    rw [hfield, hstart]
  · have hfield : at_ 14 4 = le 4 (r.speed.getD 131071 +
        131072 * (match r.start with | some t => elapsed r.due t | none => 8191)) := rfl
    rw [hfield, hstart]

/-- The body of a passage record by its offsets (11.7). -/
theorem passageBody_layout (r : PassageRecord) :
    (Record.passage r).bodies = [passageBody r] ∧ (Record.passage r).kindCode = 2 ∧
    let at_ := rowField (passageBody r)
    at_ 8 2 = le 2 r.id.toNat ∧ at_ 10 1 = [byteOf r.track.val] ∧
    at_ 11 1 = [match r.dir with | .up => 0 | .down => 1] ∧
    at_ 12 1 = [match r.close with
      | some .cleared => 0 | some .stalled => 1 | some .abandoned => 2 | some .trackClosed => 3 | none => 255] ∧
    at_ 13 1 = [byteOf r.sightings] ∧ at_ 14 1 = [byteOf r.untimed] ∧ at_ 16 6 = le 6 r.openTime.toNat ∧
    at_ 22 6 = le 6 r.lastPulse.toNat ∧ at_ 28 4 = le 4 (r.minSpeed.getD 0xFFFFFFFF) ∧
    at_ 32 4 = le 4 (r.maxSpeed.getD 0xFFFFFFFF) ∧ at_ 36 2 = le 2 r.axles ∧ at_ 38 2 = le 2 r.overflow ∧
    at_ 40 2 = le 2 r.roofItems ∧ at_ 42 2 = le 2 r.unpaired ∧ at_ 44 2 = le 2 r.implausible := by
  refine ⟨rfl, rfl, ?_⟩
  intro at_
  have hdirection : at_ 11 1 = [byteOf (directionCode (some r.dir))] := by
    simp [at_, rowField, passageBody, padTo, length_le, List.drop_append, drop_le_eq_nil]
  have hclose : at_ 12 1 = [byteOf (closeCode r.close)] := by
    simp [at_, rowField, passageBody, padTo, length_le, List.drop_append, drop_le_eq_nil]
  refine ⟨?_, ?_, ?direction, ?close, ?_, ?_, ?_, ?_, ?_, ?_, ?_, ?_, ?_, ?_, ?_⟩
  case direction => rw [hdirection]; cases r.dir <;> rfl
  case close => rw [hclose]; rcases r.close with _ | _ | _ | _ | _ <;> rfl
  all_goals simp [at_, rowField, passageBody, padTo, speedField, length_le, List.drop_append, drop_le_eq_nil]

/-- The body of a fault note by its offsets (11.8). -/
theorem faultNoteBody_layout (r : FaultNote) :
    (Record.faultNote r).bodies = [faultNoteBody r] ∧ (Record.faultNote r).kindCode = 3 ∧
    let at_ := rowField (faultNoteBody r)
    at_ 8 1 = [byteOf r.code.num] ∧
    at_ 9 1 = [match r.cls with | .note => 0 | .stop => 1 | .hold => 2 | .fatal => 3] ∧
    at_ 10 1 = [byteOf ((if r.original.isSome then 1 else 0) + (if r.track.isSome then 2 else 0) +
      (if r.station.isSome then 4 else 0) + (if r.unit.isSome then 8 else 0) + (if r.pid.isSome then 16 else 0) +
      (if r.detail.isSome then 32 else 0))] ∧
    at_ 11 1 = [byteOf ((r.original.map CauseCode.num).getD 0)] ∧ at_ 12 1 = [byteOf ((r.track.map Fin.val).getD 0)] ∧
    at_ 13 1 = [byteOf ((r.station.map Fin.val).getD 0)] ∧ at_ 14 1 = [byteOf ((r.unit.map Fin.val).getD 0)] ∧
    at_ 16 2 = le 2 (r.pid.getD 0).toNat ∧ at_ 18 6 = le 6 r.time.toNat ∧ at_ 24 8 = le 8 (r.detail.getD 0).toNat := by
  obtain ⟨code, cls, original, time, track, station, unit, pid, detail⟩ := r
  refine ⟨rfl, rfl, rfl, ?_, ?_, ?_, ?_, ?_, ?_, rfl, rfl, rfl⟩
  · cases cls <;> rfl
  · rw [← mul_boolNat 2, ← mul_boolNat 4, ← mul_boolNat 8, ← mul_boolNat 16, ← mul_boolNat 32]; rfl
  · cases original <;> rfl
  · cases track <;> rfl
  · cases station <;> rfl
  · cases unit <;> rfl

/-- Settles O40: the row's bytes by its layout, field by field; the record lands row by row and reads back. -/
theorem rowIsWritten : Obligations.RowIsWritten := by
  unfold Obligations.RowIsWritten
  refine ⟨fun row s => rfl, fun x => ⟨rfl, fun n => ⟨length_le n x, fun i hi => getElem?_le x hi⟩⟩,
    fun r body s hone hwf hlive hbase hheld hread hwrite hfree hfresh hroom hbody => ?single, captureBody_layout,
    fun start base e => ?entry, fun es => ⟨cardBase_of_none, ?base⟩, passageBody_layout, faultNoteBody_layout, rfl,
    fun p1 p2 p3 p4 s hwf hlive hbase hheld hread hwrite => ?snapshot, fun r s hwf hwrite hbodies => ?written,
    fun r s hbodies => ?errors⟩
  case base => rintro before e after a rfl hbefore he ha; exact cardBase_of_first hbefore he ha
  case single =>
    intro a t
    have hrows : rowsFrom s.writer.rowCursor r.bodies.length = [s.writer.rowCursor] := by
      rw [hone]; exact rowsFrom_one _
    obtain ⟨mem, outputs, hplaced, hreads, hothers⟩ := handRecord_of_free (r := r) hwf hlive hbase hheld hread hwrite
      (by rw [hrows]; simpa using hfree) (by rw [hrows]; simpa using hfresh) (by rw [hone]; exact hroom)
      (by rw [hone]; simpa using hbody)
    rw [hrows] at hplaced hreads hothers
    have ht : t = _ := congrArg Prod.fst hplaced
    refine ⟨by rw [hplaced], ?_, fun x hx => ?_, ?_⟩
    · exact hreads 0 _ body rfl (by rw [hone]; rfl) t (by rw [ht])
    · rw [ht]
      exact hothers x fun row hrow => by rw [List.mem_singleton.1 hrow]; exact hx
    · rw [ht, hone]; rfl
  case entry =>
    intro carded outcome unit flags steps whole entry
    have hcarded := hasCard_iff e
    have houtcome : e.outcome.code = outcome := by
      change _ = (fun o : TileOutcome => match o with
        | .tiled => 0 | .dropped => 1 | .timedOut => 2 | .mismatched => 3 | .failed => 4 | .pending => 7) e.outcome
      cases e.outcome <;> rfl
    have hunit : (e.unit.map Fin.val).getD 7 = unit := by
      change _ = (fun u : Option UnitId => match u with | some u => u.val | none => 7) e.unit
      cases e.unit <;> rfl
    have hflags : boolNat e.dark + 2 * boolNat e.glared + 4 * boolNat e.clipped + 8 * boolNat e.truncated = flags := by
      rw [mul_boolNat, mul_boolNat, mul_boolNat]; rfl
    refine ⟨fun hno => ?_, fun hyes hwhole => ?_, fun hyes hpart => ?_⟩
    · have hcard : ¬e.hasCard = true := fun h => hno (hcarded.1 h)
      exact exposureEntry_of (if_neg hcard) houtcome hunit hflags (cardOffset_of_no_card hcard)
    · have hcard := hcarded.2 hyes
      exact exposureEntry_of (if_pos hcard) houtcome hunit hflags (cardOffset_of_whole hcard hwhole)
    · have hcard := hcarded.2 hyes
      exact exposureEntry_of (if_pos hcard) houtcome hunit hflags (cardOffset_of_not_whole hcard hpart)
  case snapshot =>
    intro row hrows hroom hbodies q
    obtain ⟨mem, outputs, hplaced, hreads, hothers⟩ := handRecord_of_free (r := .snapshot p1 p2 p3 p4) hwf hlive hbase hheld
      hread hwrite
      (fun x hx => by obtain ⟨i, hi, rfl⟩ := mem_rowsFrom_iff.1 hx; exact (hrows i hi).1)
      (fun x hx => by obtain ⟨i, hi, rfl⟩ := mem_rowsFrom_iff.1 hx; exact (hrows i hi).2) hroom hbodies
    have hq : q = _ := hplaced
    refine ⟨by rw [hq], fun i body hi => ?_, fun x hx => ?_, ?_⟩
    · have hlt : i < 4 := (List.getElem?_eq_some_iff.1 hi).1
      exact hreads i (row i) body (getElem?_rowsFrom_eq hlt) hi q.1 (by rw [hq])
    · rw [hq]
      exact hothers x fun y hy => by obtain ⟨i, hi, rfl⟩ := mem_rowsFrom_iff.1 hy; exact hx i hi
    · rw [hq]; rfl
  case written =>
    intro rows n q
    obtain ⟨mem, outputs, hplaced, hreads, hothers⟩ := writeRecord_of_no_errors hwf hwrite hbodies
    have hq : q = _ := hplaced
    refine ⟨by rw [hq]; rfl, by rw [hq], ?_, fun i row body hrow hbody => ?_, fun x hx => ?_, fun body hone => ?_⟩
    · have hcauses : q.2.2 = overflowCauses n.2.2 := by rw [hq]; rfl
      rw [hcauses]
      cases n.2.2 <;> rfl
    · exact hreads i row body hrow hbody q.1 (by rw [hq])
    · rw [hq]; exact hothers x hx
    · exact writeRecord_outputs hone hwf hwrite (hbodies body (by rw [hone]; exact List.mem_singleton_self _))
  case errors =>
    intro rows bad q
    obtain ⟨hall, hsome⟩ := writeRecord_outcome (s := s) hbodies
    refine ⟨fun h => hall fun row hrow ⟨i, hi, hb⟩ => h row hrow i hi hb, fun ⟨row, hrow, i, hi, hb⟩ =>
      hsome ⟨row, hrow, i, hi, hb⟩, fun body hone hwf => ?_⟩
    have hbody := hbodies body (by rw [hone]; exact List.mem_singleton_self _)
    exact ⟨writeRecord_of_body_error hone hwf hbody, writeRecord_of_state_error hone hwf hbody⟩

end Sys2Proof.Machine
end

section
/-! PROOFS. The tasks of an event, and the events of a station: rest, wake, the entry into OFFLINE (04, R72 to R74). -/

namespace Sys2Proof.Machine

open Sys2Proof

/-! ## Tasks (log 13) -/

theorem drainTo_nil (n : Nat) (s : State) : drainTo n [] s = s := by cases n <;> rfl

theorem drainTo_cons (n : Nat) (t : Task) (ts : List Task) (s : State) :
    drainTo (n + 1) (t :: ts) s = drainTo n ((handleTask t s).2 ++ ts) (handleTask t s).1 := rfl

/-- A task that brings no other is all there is to handle. -/
theorem drain_of_handled {t : Task} {s u : State} (h : handleTask t s = (u, [])) : drain [t] s = u := by
  obtain ⟨n, hn⟩ : ∃ n, workBound s = n + 1 := ⟨workBound s - 1, by unfold workBound; omega⟩
  rw [drain, hn, drainTo_cons, h]
  exact drainTo_nil n u

theorem closeOut_of_no_run {st : StationId} {s : State} (h : s.stations[st].run = none) : closeOut st s = (s, []) := by
  rw [closeOut, h]

theorem offer_of_no_request {st : StationId} {s : State} (h : ∀ r ∈ s.schedule, r.station ≠ st) :
    offer st s = (s, []) := by
  have hnone : earliestOf st s = none := List.find?_eq_none.2 fun r hr => by simpa using h r hr
  rw [offer, hnone]

/-! ## Events by what their effect comes to -/

section
variable {m : Moment} {f : State → State} {s t : State} (hlive : (taken m s).device ≠ .failed) (h : f (taken m s) = t)
include hlive h

theorem event_of_effect : event m f s = .next (conclude t) := by rw [event_of_live hlive, h]

theorem plainEvent_of_effect : plainEvent m f s = .next t := by rw [plainEvent_of_live hlive, h]

end

/-! ## Updates of a station made one after the other -/

theorem modStation_modStation (st : StationId) (f g : Station → Station) (s : State) :
    modStation st g (modStation st f s) = modStation st (fun x => g (f x)) s := by
  simp [modStation]

theorem modRun_of_run {st : StationId} {r : Run} {f : Run → Run} {s : State} (h : s.stations[st].run = some r) :
    modRun st f s = modStation st (fun x => { x with run := some (f r) }) s :=
  modStation_congr st (by rw [h]; rfl)

theorem modRun_of_no_run {st : StationId} {f : Run → Run} {s : State} (h : s.stations[st].run = none) :
    modRun st f s = s := by
  have hsame : ({ s.stations[st] with run := s.stations[st].run.map f } : Station) = s.stations[st] := by
    rw [h, Option.map_none, ← h]
  have hset : s.stations.set st s.stations[st] = s.stations := by simp
  exact (congrArg (fun x => { s with stations := s.stations.set st x }) hsame).trans
    (congrArg (fun l => { s with stations := l }) hset)

theorem restTimerOf_eq (st : StationId) (s : State) : restTimerOf st s =
    match s.stations[st].plan with
    | none => none
    | some p => if p.restS = 0 then none else some (plusUs s.gantryTime (p.restS * 1000000)) := by
  unfold restTimerOf
  cases s.stations[st].plan <;> rfl

/-! ## Aborts and the entry into OFFLINE (R74, R92) -/

theorem abortRun_of_no_run {st : StationId} {s : State} (h : s.stations[st].run = none) : abortRun st s = s := by
  rw [abortRun, h]

theorem abortRun_of_run {st : StationId} {r : Run} {s : State} (h : s.stations[st].run = some r) :
    abortRun st s = { s with
      waiting := if r.wait = .flash then s.waiting.filter (fun q => q.station != st) else s.waiting
      stations := s.stations.set st { s.stations[st] with
        state := if s.stations[st].state = .running then .ending else s.stations[st].state
        run := some r.abort } } := by
  rw [abortRun, h]
  by_cases hflash : r.wait = .flash <;> simp [hflash, modStation, dropFlash]

/-- What a station and its port are set to before the close-out of an entry into OFFLINE. -/
def offline (st : StationId) (s : State) : State :=
  modPort st (fun p => { p with awaited := [] })
    (modStation st (fun x => { x with state := .offline, restTimer := none, wakeTimer := none }) s)

theorem enterOffline_of_no_run {st : StationId} {s : State} (h : s.stations[st].run = none) :
    enterOffline st s = stationRests st (stationOffline st (offline st s)) := by
  have hoff : (modStation st (fun x => { x with state := .offline, restTimer := none, wakeTimer := none })
      s).stations[st].run = none := by simpa using h
  have hport : (offline st s).stations[st].run = none := by simpa [offline] using h
  have hdrain : drain [.closeOut st] (offline st s) = offline st s := drain_of_handled (closeOut_of_no_run hport)
  unfold enterOffline
  simp only [abortRun_of_no_run hoff, modRun_of_no_run hoff]
  exact congrArg (fun s => stationRests st (stationOffline st s)) hdrain

theorem enterOffline_of_run {st : StationId} {r : Run} {s : State} (h : s.stations[st].run = some r) :
    enterOffline st s = stationRests st (stationOffline st (drain [.closeOut st] { s with
      waiting := if r.wait = .flash then s.waiting.filter (fun q => q.station != st) else s.waiting
      stations := s.stations.set st { s.stations[st] with
        state := .offline, restTimer := none, wakeTimer := none
        run := some { r.abort with exposures := r.exposures.map Exposure.giveUp } }
      ports := s.ports.set st { s.ports[st] with awaited := [] } })) := by
  have hoff : (modStation st (fun x => { x with state := .offline, restTimer := none, wakeTimer := none })
      s).stations[st].run = some r := by simpa using h
  unfold enterOffline
  simp only [abortRun_of_run hoff]
  simp [modRun, modStation, modPort, Run.abort]

/-! ## The events of a station -/

section
variable (m : Moment) (st : StationId) (s : State)

theorem exec_readyAnswer : exec (.readyAnswer m st) s = event m (takeReadyAnswer st) s := execReadyAnswer.eq_1 m st s

theorem exec_restTimerExpiry : exec (.restTimerExpiry m st) s = plainEvent m (fun s =>
    if s.stations[st].state = .idle ∧ expired s.stations[st].restTimer s.gantryTime = true then goToRest st s else s) s :=
  execRestTimerExpiry.eq_1 m st s

theorem exec_wakeLimitExpiry : exec (.wakeLimitExpiry m st) s = event m (fun s =>
    if s.stations[st].state = .waking ∧ expired s.stations[st].wakeTimer s.gantryTime = true then cameraSilent st s
    else s) s := execWakeLimitExpiry.eq_1 m st s

end

/-- A ready answer of a WAKING station brings it to IDLE; the offer of a station without a request changes nothing. -/
theorem takeReadyAnswer_of_waking {st : StationId} {s : State} (hconf : s.ports[st].configured = true)
    (hwaking : s.stations[st].state = .waking) :
    takeReadyAnswer st s = drain [.offer st] (enterIdle st s).1 := if_pos ⟨hconf, hwaking⟩

theorem takeReadyAnswer_of_other {st : StationId} {s : State}
    (h : s.ports[st].configured = false ∨ s.stations[st].state ≠ .waking) : takeReadyAnswer st s = s :=
  if_neg fun hboth => h.elim (fun hf => Bool.noConfusion (hf.symm.trans hboth.1)) fun hn => hn hboth.2

theorem drain_offer_of_no_request {st : StationId} {s : State} (h : ∀ r ∈ s.schedule, r.station ≠ st) :
    drain [.offer st] s = s := drain_of_handled (offer_of_no_request h)

/-- Settles O42: each event by whether its condition holds; the entry into OFFLINE by whether the station holds a run,
with CAMERA_SILENT leaving the stations as they are. -/
theorem stationEvents : Obligations.StationEvents := by
  intro m st s b x idle silent hlive
  have hidle : (enterIdle st b).1 = idle := congrArg (fun timer => { b with
    stations := b.stations.set st { x with state := .idle, wakeTimer := none, restTimer := timer } }) (restTimerOf_eq st b)
  refine ⟨fun hconf hwaking => ?ready, ?notReady, ?rests, ?restsNot, fun hwaking hexpired => ⟨?silent, ?offline⟩, ?wakesNot, rfl,
    fun r hrun => ?withRun⟩
  case ready =>
    have hready : takeReadyAnswer st b = drain [.offer st] idle := by rw [takeReadyAnswer_of_waking hconf hwaking, hidle]
    exact ⟨(exec_readyAnswer m st s).trans (event_of_effect hlive hready), fun hno =>
      (exec_readyAnswer m st s).trans (event_of_effect hlive (hready.trans (drain_offer_of_no_request hno)))⟩
  case notReady =>
    exact fun h => (exec_readyAnswer m st s).trans (event_of_effect hlive (takeReadyAnswer_of_other h))
  case rests =>
    exact fun hstate hexpired =>
      (exec_restTimerExpiry m st s).trans (plainEvent_of_effect hlive (if_pos ⟨hstate, hexpired⟩))
  case restsNot =>
    exact fun h =>
      (exec_restTimerExpiry m st s).trans (plainEvent_of_effect hlive (if_neg (not_and_of_ne_or h)))
  case silent =>
    exact (exec_wakeLimitExpiry m st s).trans (event_of_effect hlive (if_pos ⟨hwaking, hexpired⟩))
  case offline =>
    intro hcalm hno
    have hstations : silent.stations = b.stations := (raise_reports hcalm).stations
    have hx : silent.stations[st] = x := by rw [hstations]
    rw [enterOffline_of_no_run (by rw [hx]; exact hno), offline, modStation, hx]
    rfl
  case wakesNot =>
    exact fun h =>
      (exec_wakeLimitExpiry m st s).trans (event_of_effect hlive (if_neg (not_and_of_ne_or h)))
  case withRun => exact enterOffline_of_run hrun

end Sys2Proof.Machine
end

section
/-! PROOFS. The timers of a run, the reports of tile outcomes and the close-out (04, R80 to R94, R112, R121). -/

namespace Sys2Proof.Machine

open Sys2Proof

/-! ## Going on to the next step (R80) -/

theorem index_val_eq_last_iff {r : Run} : r.index.val = 31 ↔ r.index = 31 := by
  rw [Fin.ext_iff]; rfl

theorem stepDone_of_last {st : StationId} {r : Run} {s : State} (h : r.index = 31) : stepDone st r s = endSteps st s :=
  if_pos (index_val_eq_last_iff.2 h)

theorem stepDone_of_not_last {st : StationId} {r : Run} {s : State} (h : r.index ≠ 31) :
    stepDone st r s = (modRun st (fun r => { r with index := r.index + 1, wait := .none }) s, [.step st]) :=
  if_neg fun hv => h (index_val_eq_last_iff.1 hv)

theorem stepDone_eq (st : StationId) (r : Run) (s : State) : stepDone st r s =
    if r.index = 31 then (modStation st (fun x => { x with
      state := .ending, run := x.run.map fun r => { r with wait := .none } }) s, [.closeOut st])
    else (modRun st (fun r => { r with index := r.index + 1, wait := .none }) s, [.step st]) := by
  by_cases h : r.index = 31
  · rw [if_pos h, stepDone_of_last h]; rfl
  · rw [if_neg h, stepDone_of_not_last h]

theorem drain_stepDone (st : StationId) (r : Run) (s : State) : drain (stepDone st r s).2 (stepDone st r s).1 =
    if r.index = 31 then drain [.closeOut st] (modStation st (fun x => { x with
      state := .ending, run := x.run.map fun r => { r with wait := .none } }) s)
    else drain [.step st] (modRun st (fun r => { r with index := r.index + 1, wait := .none }) s) := by
  rw [stepDone_eq]
  split <;> rfl

/-! ## The end of an exposure (R82, R112, R121) -/

theorem exposureStepDone_of_waiting {st : StationId} {e : OpenExposure} {r : Run} {s : State}
    (hrun : s.stations[st].run = some r) (hwait : r.wait = .exposure e.finish) :
    exposureStepDone st e s = drain (stepDone st r s).2 (stepDone st r s).1 := by
  rw [exposureStepDone, hrun]
  exact if_pos hwait

theorem exposureStepDone_of_other {st : StationId} {e : OpenExposure} {s : State}
    (h : ∀ r ∈ s.stations[st].run, r.wait ≠ .exposure e.finish) : exposureStepDone st e s = s := by
  unfold exposureStepDone
  split
  · rfl
  · next r hrun => exact if_neg (h r hrun)

theorem endInPlace_of_reached {st : StationId} {e : OpenExposure} {s : State} (he : s.openExposures[st] = some e)
    (hreached : reached e.finish s.gantryTime = true) :
    endInPlace st s = exposureStepDone st e (startFrameTimer st e (arbitrationPass (setOpenExposure st none s))) := by
  rw [endInPlace, he]
  exact if_pos hreached

theorem endInPlace_of_not_reached {st : StationId} {s : State}
    (h : ∀ e ∈ s.openExposures[st], reached e.finish s.gantryTime = false) : endInPlace st s = s := by
  unfold endInPlace
  split
  · rfl
  · next e he => exact if_neg (Bool.eq_false_iff.1 (h e he))

/-! ## The end of a PAUSE and of an AWAIT's time (R83, R87) -/

theorem awaitedSenders_of_await {st : StationId} {r : Run} {expiry : Time} {mask : Byte} {timeout : Nat} {s : State}
    (hrun : s.stations[st].run = some r) (hwait : r.wait = .await expiry)
    (hstep : currentStep r s = some (.await mask timeout)) : awaitedSenders st s = some (namedOthers mask st) := by
  rw [awaitedSenders, hrun]
  dsimp only
  rw [hwait, hstep]

theorem awaitedSenders_of_other {st : StationId} {s : State}
    (h : ∀ r ∈ s.stations[st].run, ∀ expiry, r.wait ≠ .await expiry) : awaitedSenders st s = none := by
  unfold awaitedSenders
  split
  · rfl
  · next r hrun =>
    split
    · next expiry mask timeout hwait hstep => exact absurd hwait (h r hrun expiry)
    · rfl

theorem stationTrack_modRun (st : StationId) (f : Run → Run) (s : State) :
    stationTrack st (modRun st f s) = stationTrack st s := by
  simp [stationTrack, modRun]

section
variable {m : Moment} {st : StationId} {s : State} (hlive : (taken m s).device ≠ .failed)
include hlive

theorem exec_pauseEnd_of_reached {r : Run} {finish : Time} (hrun : (taken m s).stations[st].run = some r)
    (hwait : r.wait = .pause finish) (hreached : reached finish (taken m s).gantryTime = true) :
    exec (.pauseEnd m st) s =
      .next (conclude (drain (stepDone st r (taken m s)).2 (stepDone st r (taken m s)).1)) := by
  refine (execPauseEnd.eq_1 m st s).trans (event_of_effect hlive ?_)
  dsimp only
  rw [hrun]
  dsimp only
  rw [hwait]
  exact if_pos hreached

theorem exec_pauseEnd_of_other
    (h : ∀ r ∈ (taken m s).stations[st].run, ∀ finish, r.wait = .pause finish →
      reached finish (taken m s).gantryTime = false) :
    exec (.pauseEnd m st) s = .next (conclude (taken m s)) := by
  refine (execPauseEnd.eq_1 m st s).trans (event_of_effect hlive ?_)
  dsimp only
  split
  · rfl
  · next r hrun =>
    split
    · next finish hwait => exact if_neg (Bool.eq_false_iff.1 (h r hrun finish hwait))
    · rfl

theorem exec_awaitTimerExpiry_of_reached {r : Run} {expiry : Time} {senders : List StationId}
    (hrun : (taken m s).stations[st].run = some r) (hwait : r.wait = .await expiry)
    (hsenders : awaitedSenders st (taken m s) = some senders)
    (hreached : reached expiry (taken m s).gantryTime = true) :
    exec (.awaitTimerExpiry m st) s = .next (conclude (awaitTimedOut st r senders (taken m s))) := by
  refine (execAwaitTimerExpiry.eq_1 m st s).trans (event_of_effect hlive ?_)
  rw [hrun, hsenders]
  dsimp only
  rw [hwait]
  exact if_pos hreached

theorem exec_awaitTimerExpiry_of_other
    (h : ∀ r ∈ (taken m s).stations[st].run, ∀ expiry, r.wait = .await expiry →
      reached expiry (taken m s).gantryTime = false) :
    exec (.awaitTimerExpiry m st) s = .next (conclude (taken m s)) := by
  refine (execAwaitTimerExpiry.eq_1 m st s).trans (event_of_effect hlive ?_)
  split
  · next r senders hrun hsenders =>
    split
    · next expiry hwait => exact if_neg (Bool.eq_false_iff.1 (h r hrun expiry hwait))
    · rfl
  · rfl

end

/-! ## Reports of tile outcomes (R89) -/

theorem exposureOf_of_run {st : StationId} {r : Run} {s : State} (h : s.stations[st].run = some r) (n : Nat) :
    exposureOf st (n + 1) s = r.exposures[n]? := by
  rw [exposureOf, h]
  rfl

theorem exposureOf_zero (st : StationId) (s : State) : exposureOf st 0 s = none := by
  unfold exposureOf
  split <;> rfl

section
variable {st : StationId} {n : Nat} {rep : TileReport} {s : State}

theorem reportTile_of_no_entry (h : exposureOf st n s = none) : reportTile st n rep s = s := by
  rw [reportTile, h]

theorem reportTile_of_not_pending {e : Exposure} (h : exposureOf st n s = some e) (hpending : e.outcome ≠ .pending) :
    reportTile st n rep s = s := by
  rw [reportTile, h]
  exact if_neg hpending

theorem reportTile_of_pending {e : Exposure} (h : exposureOf st n s = some e) (hpending : e.outcome = .pending) :
    reportTile st n rep s = drain [.closeOut st] (modExposure st n (Exposure.take rep) s) := by
  rw [reportTile, h]
  exact if_pos hpending

theorem modExposure_succ (f : Exposure → Exposure) : modExposure st (n + 1) f s =
    modRun st (fun r => { r with exposures := r.exposures.modify n f }) s := rfl

theorem modExposure_of_entry {f : Exposure → Exposure} {r : Run} {e : Exposure} (hrun : s.stations[st].run = some r)
    (he : r.exposures[n]? = some e) :
    modExposure st (n + 1) f s = modRun st (fun r => { r with exposures := r.exposures.set n (f e) }) s := by
  have hmodify : r.exposures.modify n f = r.exposures.set n (f e) := by
    rw [List.modify_eq_set_getElem?, he]
    rfl
  rw [modExposure_succ, modRun_of_run hrun, modRun_of_run hrun, hmodify]

end

/-! ## The close-out (R90, R94) -/

/-- The record of a run has been handed and its end accounted for. -/
def closedOut (st : StationId) (r : Run) (s : State) : State :=
  let t := (handRecord (.capture (runRecord st r)) s).1
  if r.pid = 0 then testEnded st (outcomeByte r.outcome.capture r.unsynced) r.exposures.length t
  else account r.pid r.sighting t

theorem settled_iff {r : Run} : r.exposures.all (fun e => e.outcome != .pending) = true ↔
    ∀ e ∈ r.exposures, e.outcome ≠ .pending := by simp

section
variable {st : StationId} {r : Run} {s : State} (hrun : s.stations[st].run = some r)
include hrun

theorem closeOut_of_open (h : ¬(s.stations[st].state = .ending ∨ s.stations[st].state = .offline) ∨
    ∃ e ∈ r.exposures, e.outcome = .pending) : closeOut st s = (s, []) := by
  rw [closeOut, hrun]
  refine if_neg fun ⟨hended, hall⟩ => ?_
  rcases h with h | ⟨e, he, hpending⟩
  · exact h hended
  · exact settled_iff.1 hall e he hpending

variable (hended : s.stations[st].state = .ending ∨ s.stations[st].state = .offline)
  (hsettled : ∀ e ∈ r.exposures, e.outcome ≠ .pending)
include hended hsettled

theorem closeOut_of_ended : closeOut st s =
    if (closedOut st r s).device = .failed then (closedOut st r s, [])
    else
      if (modStation st (fun x => { x with run := none }) (closedOut st r s)).stations[st].state = .ending then
        enterIdle st (modStation st (fun x => { x with run := none }) (closedOut st r s))
      else (modStation st (fun x => { x with run := none }) (closedOut st r s), []) := by
  rw [closeOut, hrun]
  exact if_pos ⟨hended, settled_iff.2 hsettled⟩

variable {u : State} (hu : closedOut st r s = u)
include hu

theorem closeOut_of_failed (hfailed : u.device = .failed) : closeOut st s = (u, []) := by
  rw [closeOut_of_ended hrun hended hsettled, hu, if_pos hfailed]

theorem closeOut_of_offline (hlive : u.device ≠ .failed) (hstate : u.stations[st].state ≠ .ending) :
    closeOut st s = (modStation st (fun x => { x with run := none }) u, []) := by
  rw [closeOut_of_ended hrun hended hsettled, hu, if_neg hlive, if_neg (by simpa using hstate)]

theorem closeOut_of_ending (hlive : u.device ≠ .failed) (hstate : u.stations[st].state = .ending) :
    closeOut st s = (modStation st (fun x => { x with
      run := none, state := .idle, wakeTimer := none, restTimer := restTimerOf st u }) u, [.offer st]) := by
  have hrest : restTimerOf st (modStation st (fun x => { x with run := none }) u) = restTimerOf st u := by
    simp [restTimerOf]
  rw [closeOut_of_ended hrun hended hsettled, hu, if_neg hlive, if_pos (by simpa using hstate), enterIdle,
    modStation_modStation, hrest]

end

theorem outcomeByte_of_run (r : Run) : outcomeByte r.outcome.capture r.unsynced =
    byteOf ((match r.outcome with | .done => 0 | .abandoned => 2 | .faulted => 3) + if r.unsynced then 128 else 0) := by
  cases hr : r.outcome <;> cases r.unsynced <;> rfl

theorem closedOut_eq (st : StationId) (r : Run) (s : State) : closedOut st r s =
    if r.pid = 0 then finishParked (.station st) (.ok [byteOf
      ((match r.outcome with | .done => 0 | .abandoned => 2 | .faulted => 3) + if r.unsynced then 128 else 0),
      byteOf r.exposures.length]) (handRecord (.capture (runRecord st r)) s).1
    else account r.pid r.sighting (handRecord (.capture (runRecord st r)) s).1 := by
  rw [← outcomeByte_of_run]
  exact closedOut.eq_1 st r s

theorem frameTimeoutUs_of_plan {st : StationId} {plan : StationPlan} {s : State} (h : s.stations[st].plan = some plan) :
    frameTimeoutUs st s = plan.frameTimeout * 1000 := by
  rw [frameTimeoutUs, h]
  rfl

/-- Settles O43: each timer by whether its instant has come, with the step after it by `drain_stepDone`; a report by the
entry it names; a close-out by whether the run has ended and what its record has made of the device. -/
theorem runTimers : Obligations.RunTimers := by
  refine ⟨?timers, ?reports, ?closeOuts, fun st plan s h => frameTimeoutUs_of_plan h⟩
  case timers =>
    intro m st s b goOn beside closed timed hlive
    refine ⟨fun x hx => ?_, fun e hno he hreached => ⟨fun r hrun hwait => ?_, fun hother => ?_⟩, fun hno hother => ?_,
      fun r finish hrun hwait hreached => ?_, fun hother => exec_pauseEnd_of_other hlive hother,
      fun r expiry mask timeout hrun hwait hstep hreached => ?_, fun hother => exec_awaitTimerExpiry_of_other hlive hother⟩
    · exact (execExposureEnd.eq_1 m st s).trans (event_of_effect hlive (endExposure_of_lingering hx))
    · have hplace : endExposure st b = goOn r (timed e) :=
        (endExposure_in_place hno).trans <| (endInPlace_of_reached he hreached).trans <|
          (exposureStepDone_of_waiting (s := timed e) hrun hwait).trans (drain_stepDone st r (timed e))
      exact (execExposureEnd.eq_1 m st s).trans (event_of_effect hlive hplace)
    · have hplace : endExposure st b = timed e :=
        (endExposure_in_place hno).trans <| (endInPlace_of_reached he hreached).trans <|
          exposureStepDone_of_other (s := timed e) hother
      exact (execExposureEnd.eq_1 m st s).trans (event_of_effect hlive hplace)
    · exact (execExposureEnd.eq_1 m st s).trans (event_of_effect hlive
        ((endExposure_in_place hno).trans (endInPlace_of_not_reached hother)))
    · exact (exec_pauseEnd_of_reached hlive hrun hwait hreached).trans
        (congrArg (fun s => Host.Outcome.next (conclude s)) (drain_stepDone st r b))
    · intro named missing late
      have htimed : awaitTimedOut st r named b = goOn r (modStation st (fun x => { x with
          marks := x.marks.filter fun n => !(named.contains n.sender && n.pid == r.pid) }) late) := by
        simp only [awaitTimedOut, stationTrack_modRun]
        exact drain_stepDone st r _
      exact (exec_awaitTimerExpiry_of_reached hlive hrun hwait (awaitedSenders_of_await hrun hwait hstep) hreached).trans
        (congrArg (fun s => Host.Outcome.next (conclude s)) htimed)
  case reports =>
    intro st n rep s
    refine ⟨fun r e hrun he => ?_, fun hshort => ?_, reportTile_of_no_entry (exposureOf_zero st s)⟩
    · have hentry : exposureOf st (n + 1) s = some e := (exposureOf_of_run hrun n).trans he
      refine ⟨fun hpending => ?_, reportTile_of_not_pending hentry⟩
      rw [reportTile_of_pending hentry hpending, modExposure_of_entry hrun he]
      rfl
    · refine reportTile_of_no_entry ?_
      cases hrun : s.stations[st].run with
      | none => rw [exposureOf, hrun]
      | some r => exact (exposureOf_of_run hrun n).trans (List.getElem?_eq_none (hshort r hrun))
  case closeOuts =>
    intro st s
    refine ⟨closeOut_of_no_run, fun r hrun => ?_⟩
    intro ended outcome code t u x
    have hu : closedOut st r s = u := closedOut_eq st r s
    clear_value u
    refine ⟨closeOut_of_open hrun, fun hended hsettled => ⟨closeOut_of_failed hrun hended hsettled hu,
      closeOut_of_offline hrun hended hsettled hu, fun hlive hstate => ?_⟩⟩
    exact (closeOut_of_ending hrun hended hsettled hu hlive hstate).trans
      (congrArg (fun timer => ({ u with stations := u.stations.set st { u.stations[st] with
        run := none, state := .idle, wakeTimer := none, restTimer := timer } }, [Task.offer st])) (restTimerOf_eq st u))

end Sys2Proof.Machine
end

section
/-! PROOFS. The step kinds, the marks and the aborts of a run (04, R79 to R92). -/

namespace Sys2Proof.Machine

open Sys2Proof

/-! ## The step a run stands at -/

section
variable {st : StationId} {r : Run} {s : State} (hstate : s.stations[st].state = .running)
  (hrun : s.stations[st].run = some r) (hwait : r.wait = .none)

section
include hstate hrun hwait

theorem takeStep_of_running : takeStep st s =
    match currentStep r s with
    | none => runFault st r 0 s
    | some (.expose length intensity mask wait) => stepExpose st r length intensity mask wait s
    | some (.pause form amount) =>
      (modRun st (fun x => { x with wait := .pause (plusUs s.gantryTime (pauseLength form amount r s)) }) s, [])
    | some (.loop target count) => stepLoop st r target count s
    | some (.mark mask) => stepMark st r mask s
    | some (.await mask timeout) => stepAwait st r mask timeout s
    | some .finish => endSteps st s := by
  unfold takeStep
  rw [hrun]
  exact if_pos ⟨hstate, hwait⟩

theorem takeStep_of_not_loaded (h : currentStep r s = none) : takeStep st s = runFault st r 0 s := by
  rw [takeStep_of_running hstate hrun hwait, h]

theorem takeStep_of_expose {length intensity wait : Nat} {mask : BitVec 6}
    (h : currentStep r s = some (.expose length intensity mask wait)) :
    takeStep st s = stepExpose st r length intensity mask wait s := by
  rw [takeStep_of_running hstate hrun hwait, h]

theorem takeStep_of_pause {form : PauseForm} {amount : Nat} (h : currentStep r s = some (.pause form amount)) :
    takeStep st s =
      (modRun st (fun x => { x with wait := .pause (plusUs s.gantryTime (pauseLength form amount r s)) }) s, []) := by
  rw [takeStep_of_running hstate hrun hwait, h]

theorem takeStep_of_loop {target : StepId} {count : Nat} (h : currentStep r s = some (.loop target count)) :
    takeStep st s = stepLoop st r target count s := by
  rw [takeStep_of_running hstate hrun hwait, h]

theorem takeStep_of_mark {mask : Byte} (h : currentStep r s = some (.mark mask)) :
    takeStep st s = stepMark st r mask s := by
  rw [takeStep_of_running hstate hrun hwait, h]

theorem takeStep_of_await {mask : Byte} {timeout : Nat} (h : currentStep r s = some (.await mask timeout)) :
    takeStep st s = stepAwait st r mask timeout s := by
  rw [takeStep_of_running hstate hrun hwait, h]

theorem takeStep_of_finish (h : currentStep r s = some .finish) : takeStep st s = endSteps st s := by
  rw [takeStep_of_running hstate hrun hwait, h]

end

/-! ## What a step makes of its run -/

/-- The station's run is replaced. -/
def setRun (st : StationId) (r : Run) (s : State) : State :=
  { s with stations := s.stations.set st { s.stations[st] with run := some r } }

/-- The station enters ENDING with a run that waits for nothing. -/
def endRun (st : StationId) (r : Run) (s : State) : State :=
  { s with stations := s.stations.set st { s.stations[st] with state := .ending, run := some { r with wait := .none } } }

/-- The run goes on past a step that is done, or ends its steps at step 31. -/
def goOnRun (st : StationId) (r : Run) (s : State) : State × List Task :=
  if r.index = 31 then (endRun st r s, [.closeOut st]) else (setRun st { r with index := r.index + 1 } s, [.step st])

theorem modRun_eq_setRun {f : Run → Run} (hrun : s.stations[st].run = some r) : modRun st f s = setRun st (f r) s :=
  modRun_of_run hrun

theorem endSteps_setRun (st : StationId) (r : Run) (s : State) :
    endSteps st (setRun st r s) = (endRun st r s, [.closeOut st]) := by
  simp [endSteps, endRun, setRun, modStation]

theorem setRun_self (hrun : s.stations[st].run = some r) : setRun st r s = s := by
  have hsame : ({ s.stations[st] with run := some r } : Station) = s.stations[st] := by rw [← hrun]
  have hset : s.stations.set st s.stations[st] = s.stations := by simp
  exact (congrArg (fun x => { s with stations := s.stations.set st x }) hsame).trans
    (congrArg (fun l => { s with stations := l }) hset)

theorem endSteps_of_run (hrun : s.stations[st].run = some r) : endSteps st s = (endRun st r s, [.closeOut st]) := by
  rw [← endSteps_setRun, setRun_self hrun]

theorem runFault_of_run (hrun : s.stations[st].run = some r) (detail : Nat) : runFault st r detail s =
    (raise { code := .runFault, track := some (stationTrack st s), station := some st, unit := none, pid := some r.pid,
             detail := some (BitVec.ofNat 64 detail) } (endRun st { r with outcome := .faulted } s), [.closeOut st]) := by
  rw [runFault, modRun_eq_setRun hrun, endSteps_setRun]

/-- A step is done for a run `q` that waits for nothing and stands where `r` stands. -/
theorem stepDone_setRun {q : Run} (hindex : q.index = r.index) (hwait : q.wait = .none) :
    stepDone st r (setRun st q s) = goOnRun st q s := by
  have hnext : ({ q with index := q.index + 1, wait := .none } : Run) = { q with index := q.index + 1 } := by
    rw [← hwait]
  by_cases hlast : r.index = 31
  · rw [stepDone_of_last hlast, endSteps_setRun, goOnRun, if_pos (hindex.trans hlast)]
  · rw [stepDone_of_not_last hlast, goOnRun, if_neg fun h => hlast (hindex.symm.trans h), ← hnext]
    simp [modRun, modStation, setRun]

theorem stepDone_of_run (hrun : s.stations[st].run = some r) (hwait : r.wait = .none) :
    stepDone st r s = goOnRun st r s := by
  rw [← stepDone_setRun rfl hwait, setRun_self hrun]

end

/-! ## The step kinds -/

section
variable {st : StationId} {r : Run} {s : State}

theorem stepLoop_of_none {target : StepId} {count : Nat} (hrun : s.stations[st].run = some r) (h : r.loop = none) :
    stepLoop st r target count s = (setRun st { r with loop := some (r.index, count), index := target } s, [.step st]) := by
  rw [stepLoop, h]
  exact congrArg (fun t => (t, [Task.step st])) (modRun_eq_setRun hrun)

theorem stepLoop_of_left {target : StepId} {count left : Nat} (hrun : s.stations[st].run = some r)
    (h : r.loop = some (r.index, left)) (hleft : 1 < left) : stepLoop st r target count s =
      (setRun st { r with loop := some (r.index, left - 1), index := target } s, [.step st]) := by
  rw [stepLoop, h]
  exact (if_pos rfl).trans <| (if_pos hleft).trans <| congrArg (fun t => (t, [Task.step st])) (modRun_eq_setRun hrun)

theorem stepLoop_of_done {target : StepId} {count left : Nat} (hrun : s.stations[st].run = some r)
    (hwait : r.wait = .none) (h : r.loop = some (r.index, left)) (hleft : left ≤ 1) :
    stepLoop st r target count s = goOnRun st { r with loop := none } s := by
  rw [stepLoop, h]
  refine (if_pos rfl).trans <| (if_neg (Nat.not_lt.2 hleft)).trans ?_
  rw [modRun_eq_setRun hrun]
  exact stepDone_setRun rfl hwait

theorem stepLoop_of_nested {target i : StepId} {count left : Nat} (h : r.loop = some (i, left)) (hi : i ≠ r.index) :
    stepLoop st r target count s = runFault st r r.index.val s := by
  rw [stepLoop, h]
  exact if_neg hi

theorem awaitComplete_iff {senders : List StationId} {pid : PassageId} {marks : List Mark} :
    awaitComplete senders pid marks = true ↔ ∀ x ∈ senders, { sender := x, pid := pid } ∈ marks := by
  simp [awaitComplete]

theorem not_awaitComplete {senders : List StationId} {pid : PassageId} {marks : List Mark}
    (h : ∃ x ∈ senders, { sender := x, pid := pid } ∉ marks) : ¬awaitComplete senders pid marks = true := by
  obtain ⟨x, hx, hmissing⟩ := h
  exact fun hall => hmissing (awaitComplete_iff.1 hall x hx)

theorem stepDone_marks {marks : List Mark} (hrun : s.stations[st].run = some r) (hwait : r.wait = .none) :
    stepDone st r (modStation st (fun x => { x with marks := marks }) s) =
      (modStation st (fun x => { x with marks := marks }) (goOnRun st r s).1, (goOnRun st r s).2) := by
  have hrun' : (modStation st (fun x => { x with marks := marks }) s).stations[st].run = some r := by simpa using hrun
  rw [stepDone_of_run hrun' hwait]
  by_cases hlast : r.index = 31 <;> simp [goOnRun, hlast, endRun, setRun, modStation]

theorem pauseSpeed_of_test {v : Nat} (h : r.testSpeed = some v) : pauseSpeed r s = v := by
  rw [pauseSpeed, h]

theorem pauseSpeed_of_estimate {k : ContextId} {p : Passage} {v : Nat} (h : r.testSpeed = none)
    (hk : contextOf r.pid s = some k) (hp : s.passages[k] = some p) (hv : p.estimate = some v) : pauseSpeed r s = v := by
  rw [pauseSpeed, h]
  have hpassage : passageOf r.pid s = some p := (passageOf_of_context hk).trans hp
  rw [hpassage]
  exact congrArg (fun e => e.getD r.speed) hv

end

/-! ## Marks (R85, R86) -/

theorem takeMark_of_known {m : Mark} {marks : List Mark} (h : ∃ x ∈ marks, x.sender = m.sender) :
    takeMark m marks = marks.map fun x => if x.sender = m.sender then m else x := by
  rw [takeMark, if_pos (by simpa using h)]
  simp only [beq_iff_eq]

theorem takeMark_of_new {m : Mark} {marks : List Mark} (h : ∀ x ∈ marks, x.sender ≠ m.sender) :
    takeMark m marks = marks ++ [m] := by
  rw [takeMark, if_neg (by simpa using h)]

/-- The receiver of a mark has taken it. -/
def marked (st : StationId) (m : Mark) (s : State) : State :=
  modStation st (fun x => { x with marks := takeMark m x.marks }) s

section
variable {st : StationId} {m : Mark} {s : State}

theorem run_marked : (marked st m s).stations[st].run = s.stations[st].run := by simp [marked]

theorem deliverMark_of_complete {r : Run} {senders : List StationId} (hrun : s.stations[st].run = some r)
    (hsenders : awaitedSenders st (marked st m s) = some senders)
    (h : ∀ x ∈ senders, { sender := x, pid := r.pid } ∈ (marked st m s).stations[st].marks) :
    deliverMark st m s = stepDone st r
      (modStation st (fun x => { x with marks := consumeMarks senders r.pid x.marks }) (marked st m s)) := by
  change (match (marked st m s).stations[st].run, awaitedSenders st (marked st m s) with
    | some r, some senders => _
    | _, _ => _) = _
  rw [run_marked, hrun, hsenders]
  exact if_pos (awaitComplete_iff.2 h)

theorem deliverMark_of_incomplete {r : Run} {senders : List StationId} (hrun : s.stations[st].run = some r)
    (hsenders : awaitedSenders st (marked st m s) = some senders)
    (h : ∃ x ∈ senders, { sender := x, pid := r.pid } ∉ (marked st m s).stations[st].marks) :
    deliverMark st m s = (marked st m s, []) := by
  change (match (marked st m s).stations[st].run, awaitedSenders st (marked st m s) with
    | some r, some senders => _
    | _, _ => _) = _
  rw [run_marked, hrun, hsenders]
  exact if_neg (not_awaitComplete h)

theorem deliverMark_of_no_await (hsenders : awaitedSenders st (marked st m s) = none) :
    deliverMark st m s = (marked st m s, []) := by
  change (match (marked st m s).stations[st].run, awaitedSenders st (marked st m s) with
    | some r, some senders => _
    | _, _ => _) = _
  rw [hsenders]
  cases (marked st m s).stations[st].run <;> rfl

end

/-! ## Aborts (R92) -/

theorem abortPassage_eq (pid : PassageId) (s : State) : abortPassage pid s =
    ([0, 1, 2, 3, 4, 5, 6, 7] : List StationId).foldl (fun s st =>
      if s.stations[st].run.map Run.pid = some pid then drain [.closeOut st] (abortRun st s) else s) s := by
  have hstep : (fun (s : State) (st : StationId) => match s.stations[st].run with
      | none => s
      | some r => if r.pid = pid then drain [.closeOut st] (abortRun st s) else s) =
      fun s st => if s.stations[st].run.map Run.pid = some pid then drain [.closeOut st] (abortRun st s) else s := by
    funext s st
    cases s.stations[st].run with
    | none => rfl
    | some r => simp
  exact congrArg (fun f => List.foldl f s allStations) hstep

/-- Settles O44: one lemma per step kind, a step that is done by `goOnRun`; a mark by what its receiver awaits; the tasks
by the equations of `drainTo`. -/
theorem stepKinds : Obligations.StepKinds := by
  refine ⟨?steps, fun m marks => ⟨takeMark_of_known, takeMark_of_new⟩, ?delivered,
    fun st s => ⟨abortRun_of_no_run, fun r hrun => abortRun_of_run hrun⟩, abortPassage_eq,
    fun r s => ⟨fun v h => pauseSpeed_of_test h, fun k p v h hk hp hv => pauseSpeed_of_estimate h hk hp hv⟩,
    fun n t ts s => ⟨rfl, drainTo_nil n s, ?_, rfl⟩⟩
  case steps =>
    intro st r s hstate hrun hwait set ends fault done step
    have hfault : ∀ detail, runFault st r detail s = fault detail := runFault_of_run hrun
    refine ⟨fun h => ?_, fun h => ?_, fun amount h => ?_, fun amount h => ?_, fun target count h => ?_,
      fun length intensity mask wait h => ?_, fun mask h => ?_, fun mask timeout h => ?_⟩
    · exact (takeStep_of_not_loaded hstate hrun hwait h).trans (hfault 0)
    · exact (takeStep_of_finish hstate hrun hwait h).trans (endSteps_of_run hrun)
    · exact (takeStep_of_pause hstate hrun hwait h).trans (congrArg (fun t => (t, [])) (modRun_eq_setRun hrun))
    · exact (takeStep_of_pause hstate hrun hwait h).trans (congrArg (fun t => (t, [])) (modRun_eq_setRun hrun))
    · have hloop := takeStep_of_loop hstate hrun hwait h
      exact ⟨fun hn => hloop.trans (stepLoop_of_none hrun hn),
        fun left hl hleft => hloop.trans (stepLoop_of_left hrun hl hleft),
        fun left hl hleft => hloop.trans (stepLoop_of_done hrun hwait hl hleft),
        fun i left hl hi => hloop.trans ((stepLoop_of_nested hl hi).trans (hfault r.index.val))⟩
    · have hexpose := takeStep_of_expose hstate hrun hwait h
      refine ⟨fun hfull => ?_, fun hroom hdark => ?_, fun hroom hlit => ?_⟩
      · exact hexpose.trans ((if_pos hfull).trans (hfault r.index.val))
      · exact hexpose.trans ((if_neg (Nat.not_le.2 hroom)).trans (if_pos hdark))
      · refine hexpose.trans ((if_neg (Nat.not_le.2 hroom)).trans ((if_neg hlit).trans ?_))
        rw [modRun_eq_setRun hrun]
        rfl
    · refine (takeStep_of_mark hstate hrun hwait h).trans ?_
      rw [stepMark, stepDone_of_run hrun hwait]
      rfl
    · have hawait := takeStep_of_await hstate hrun hwait h
      refine ⟨fun hmissing => ?_, fun hall => ?_⟩
      · exact hawait.trans ((if_neg (not_awaitComplete hmissing)).trans
          (congrArg (fun t => (t, [])) (modRun_eq_setRun hrun)))
      · exact hawait.trans ((if_pos (awaitComplete_iff.2 hall)).trans (stepDone_marks hrun hwait))
  case delivered =>
    intro st m s t
    refine ⟨fun r expiry mask timeout hrun hwait hstep => ?_, fun hno => ?_⟩
    · have hsenders : awaitedSenders st t = some (namedOthers mask st) :=
        awaitedSenders_of_await (run_marked.trans hrun) hwait hstep
      exact ⟨fun hall => (deliverMark_of_complete hrun hsenders hall).trans (stepDone_eq st r _),
        deliverMark_of_incomplete hrun hsenders⟩
    · exact deliverMark_of_no_await (awaitedSenders_of_other (run_marked.symm ▸ hno))
  case _ =>
    cases t <;> rfl

end Sys2Proof.Machine
end

section
/-! PROOFS. The strobe bank: units, users, the glare interlock, grants, denials and exposures (05, R98 to R113). -/

namespace Sys2Proof.Machine

open Sys2Proof

/-! ## Units that rest and charge (R100 to R104) -/

theorem atRest_iff {st : StationId} {s : State} :
    atRest st s = true ↔ s.stations[st].state = .resting ∨ s.stations[st].state = .offline := by
  unfold atRest
  cases s.stations[st].state <;> simp

theorem unused_iff {u : UnitId} {s : State} : unused u s = true ↔
    ∀ st : StationId, s.units[u].users.getLsbD st.val = true →
      s.stations[st].state = .resting ∨ s.stations[st].state = .offline := by
  simp only [unused, List.all_eq_true, mem_allStations, forall_const, Bool.or_eq_true, Bool.not_eq_true', atRest_iff]
  exact forall_congr' fun st => by rw [← Bool.not_eq_true, imp_iff_not_or]

/-- Units updated one after the other, each from its own entry: no update sees another. -/
theorem foldl_units {f : UnitId → State → StrobeUnit}
    (hlocal : ∀ u s units, units[u] = s.units[u] → f u { s with units := units } = f u s) :
    ∀ {l : List UnitId}, l.Nodup → ∀ s : State,
      let t := l.foldl (fun s u => { s with units := s.units.set u (f u s) }) s
      t = { s with units := t.units } ∧ ∀ u : UnitId, t.units[u] = if u ∈ l then f u s else s.units[u]
  | [], _, s => ⟨rfl, fun u => by simp⟩
  | v :: l, hnodup, s => by
    obtain ⟨hv, hl⟩ := List.nodup_cons.1 hnodup
    obtain ⟨hframe, hunits⟩ := foldl_units hlocal hl { s with units := s.units.set v (f v s) }
    refine ⟨hframe, fun u => (hunits u).trans ?_⟩
    by_cases huv : u = v
    · subst huv
      simp [hv]
    · have hother : (s.units.set v (f v s))[u] = s.units[u] :=
        Vector.getElem_set_ne _ _ fun h => huv (Fin.ext h.symm)
      simp only [List.mem_cons, huv, false_or, hother, hlocal u s _ hother]

/-- What a station's entry into the group RESTING, OFFLINE leaves of a unit. -/
def restedUnit (st : StationId) (u : UnitId) (s : State) : StrobeUnit :=
  if s.units[u].users.getLsbD st.val && unused u s && (s.units[u].state == .charging || s.units[u].state == .ready)
  then s.units[u].rest else s.units[u]

/-- What a station's leaving of the group RESTING, OFFLINE leaves of a unit. -/
def wokenUnit (st : StationId) (u : UnitId) (s : State) : StrobeUnit :=
  if s.units[u].users.getLsbD st.val && s.units[u].state == .resting then s.units[u].charge s.gantryTime else s.units[u]

theorem restedUnit_iff {st : StationId} {u : UnitId} {s : State} :
    (s.units[u].users.getLsbD st.val && unused u s && (s.units[u].state == .charging || s.units[u].state == .ready)) = true ↔
      s.units[u].users.getLsbD st.val = true ∧ (∀ st : StationId, s.units[u].users.getLsbD st.val = true →
        s.stations[st].state = .resting ∨ s.stations[st].state = .offline) ∧
        (s.units[u].state = .charging ∨ s.units[u].state = .ready) := by
  rw [← unused_iff]
  simp only [Bool.and_eq_true, Bool.or_eq_true, beq_iff_eq, and_assoc]

theorem wokenUnit_iff {st : StationId} {u : UnitId} {s : State} :
    (s.units[u].users.getLsbD st.val && s.units[u].state == .resting) = true ↔
      s.units[u].users.getLsbD st.val = true ∧ s.units[u].state = .resting := by
  simp only [Bool.and_eq_true, beq_iff_eq]

theorem units_set_self (u : UnitId) (s : State) : { s with units := s.units.set u s.units[u] } = s := by simp

theorem stationRests_eq (st : StationId) (s : State) : stationRests st s =
    allUnits.foldl (fun s u => { s with units := s.units.set u (restedUnit st u s) }) s := by
  refine congrArg (fun f => List.foldl f s allUnits) (funext fun s => funext fun u => ?_)
  unfold restedUnit
  split
  · rfl
  · exact (units_set_self u s).symm

theorem stationWakes_eq (st : StationId) (s : State) : stationWakes st s =
    allUnits.foldl (fun s u => { s with units := s.units.set u (wokenUnit st u s) }) s := by
  refine congrArg (fun f => List.foldl f s allUnits) (funext fun s => funext fun u => ?_)
  unfold wokenUnit
  split
  · rfl
  · exact (units_set_self u s).symm

theorem stationRests_spec (st : StationId) (s : State) :
    stationRests st s = { s with units := (stationRests st s).units } ∧
      ∀ u : UnitId, (stationRests st s).units[u] = restedUnit st u s := by
  have hlocal : ∀ u s units, units[u] = s.units[u] → restedUnit st u { s with units := units } = restedUnit st u s :=
    fun u s units h => congrArg (fun x : StrobeUnit =>
      if x.users.getLsbD st.val && (allStations.all fun q => !x.users.getLsbD q.val || atRest q s) &&
        (x.state == .charging || x.state == .ready) then x.rest else x) h
  rw [stationRests_eq]
  have h := foldl_units hlocal (l := allUnits) (by decide) s
  exact ⟨h.1, fun u => (h.2 u).trans (if_pos (mem_allUnits u))⟩

theorem stationWakes_spec (st : StationId) (s : State) :
    stationWakes st s = { s with units := (stationWakes st s).units } ∧
      ∀ u : UnitId, (stationWakes st s).units[u] = wokenUnit st u s := by
  have hlocal : ∀ u s units, units[u] = s.units[u] → wokenUnit st u { s with units := units } = wokenUnit st u s :=
    fun u s units h => by simp only [wokenUnit, h]
  rw [stationWakes_eq]
  have h := foldl_units hlocal (l := allUnits) (by decide) s
  exact ⟨h.1, fun u => (h.2 u).trans (if_pos (mem_allUnits u))⟩

theorem endPulse_of_unused {u : UnitId} {s : State} (h : unused u s = true) : endPulse u s =
    modUnit u (fun x => ({ x with fireLine := false, firing := none, pulseEnd := none } : StrobeUnit).rest) s :=
  modUnit_congr u (if_pos h)

theorem endPulse_of_used {u : UnitId} {s : State} (h : ¬unused u s = true) : endPulse u s =
    modUnit u (fun x => ({ x with fireLine := false, firing := none, pulseEnd := none } : StrobeUnit).charge s.gantryTime)
      s :=
  modUnit_congr u (if_neg h)

/-- Settles O45: each event by whether its condition holds; the units of a station one by one, each update seeing its own
unit alone (`foldl_units`). -/
theorem strobeUnits : Obligations.StrobeUnits := by
  refine ⟨?events, fun st s u => ?_⟩
  case events =>
    intro m u s b x users pulsed hlive
    have hready := execStrobeReady.eq_1 m u s
    have hrecharge := execRechargeTimerExpiry.eq_1 m u s
    have hpulse := execPulseEnd.eq_1 m u s
    refine ⟨fun h => ?_, fun h => ?_, fun hstate hexpired => ?_, fun h => ?_, fun hstate hexpired hu => ?_,
      fun hstate hexpired hu => ?_, fun h => ?_⟩
    · exact hready.trans (plainEvent_of_effect hlive (if_pos h))
    · exact hready.trans (plainEvent_of_effect hlive (if_neg h))
    · exact hrecharge.trans (event_of_effect hlive (if_pos ⟨hstate, hexpired⟩))
    · exact hrecharge.trans (event_of_effect hlive (if_neg (not_and_of_ne_or h)))
    · exact hpulse.trans (plainEvent_of_effect hlive
        ((if_pos ⟨hstate, hexpired⟩).trans (endPulse_of_unused (unused_iff.2 hu))))
    · exact hpulse.trans (plainEvent_of_effect hlive
        ((if_pos ⟨hstate, hexpired⟩).trans (endPulse_of_used fun h => hu (unused_iff.1 h))))
    · exact hpulse.trans (plainEvent_of_effect hlive (if_neg (not_and_of_ne_or h)))
  · intro x rested woken users
    obtain ⟨hrested, hrestedUnit⟩ := stationRests_spec st s
    obtain ⟨hwoken, hwokenUnit⟩ := stationWakes_spec st s
    exact ⟨hrested, hwoken,
      fun huses hu hstate => (hrestedUnit u).trans (if_pos (restedUnit_iff.2 ⟨huses, hu, hstate⟩)),
      fun h => (hrestedUnit u).trans (if_neg fun hc => h (restedUnit_iff.1 hc)),
      fun huses hstate => (hwokenUnit u).trans (if_pos (wokenUnit_iff.2 ⟨huses, hstate⟩)),
      fun h => (hwokenUnit u).trans (if_neg fun hc => h (wokenUnit_iff.1 hc))⟩

/-! ## The glare interlock (R106, R107, R113) -/

theorem sensitiveWithin_iff {st : StationId} {reach : BitVec 4} {s : State} : sensitiveWithin st reach s = true ↔
    ∃ p, s.stations[st].plan = some p ∧ p.sensitive = true ∧ reach.getLsbD p.track.val = true := by
  unfold sensitiveWithin
  cases s.stations[st].plan <;> simp

theorem exposureOpen_iff {st : StationId} {s : State} :
    exposureOpen st s = true ↔ s.openExposures[st] ≠ none ∨ ∃ x ∈ s.lingering, x.station = st := by
  simp [exposureOpen, Option.isSome_iff_ne_none]

theorem barred_iff {u : UnitId} {requester : StationId} {s : State} : barred u requester s = true ↔
    ∃ st : StationId, st ≠ requester ∧ (∃ p, s.stations[st].plan = some p ∧ p.sensitive = true ∧
      s.units[u].reach.getLsbD p.track.val = true) ∧
      (s.openExposures[st] ≠ none ∨ ∃ x ∈ s.lingering, x.station = st) := by
  simp only [barred, List.any_eq_true, mem_allStations, true_and, Bool.and_eq_true, bne_iff_ne, sensitiveWithin_iff,
    exposureOpen_iff, and_assoc]

theorem isGlared_iff {st : StationId} {s : State} : isGlared st s = true ↔
    ∃ u : UnitId, ∃ other : StationId, s.units[u].state = .firing ∧ s.units[u].firing = some other ∧ other ≠ st ∧
      ∃ p, s.stations[st].plan = some p ∧ p.sensitive = true ∧ s.units[u].reach.getLsbD p.track.val = true := by
  simp only [isGlared, List.any_eq_true, mem_allUnits, true_and]
  refine exists_congr fun u => ?_
  cases s.units[u].firing with
  | none => simp
  | some other => simp [sensitiveWithin_iff, and_assoc]

/-- A unit can be granted to a request: usable, READY and not barred. -/
def Good (q : FlashRequest) (s : State) (u : UnitId) : Prop :=
  q.usable.getLsbD u.val = true ∧ s.units[u].state = .ready ∧ barred u q.station s = false

theorem good_iff {q : FlashRequest} {s : State} {u : UnitId} :
    (q.usable.getLsbD u.val && s.units[u].state == .ready && !barred u q.station s) = true ↔ Good q s u := by
  simp [Good, and_assoc]

theorem grantable_eq_some_iff {q : FlashRequest} {s : State} {u : UnitId} :
    grantable q s = some u ↔ Good q s u ∧ ∀ v, v < u → ¬Good q s v := by
  unfold grantable
  rw [find?_eq_some_iff_first (by decide)]
  refine (and_iff_right (mem_allUnits u)).trans (and_congr good_iff (forall_congr' fun v => ?_))
  rw [← good_iff, Bool.not_eq_true]
  exact forall_prop_of_true (mem_allUnits v)

theorem grantable_eq_none_iff {q : FlashRequest} {s : State} : grantable q s = none ↔ ∀ u, ¬Good q s u := by
  unfold grantable
  simp only [List.find?_eq_none, mem_allUnits, forall_const, good_iff]

theorem arbitrationPass_eq (s : State) : arbitrationPass s =
    s.waiting.foldl (fun s q => match grantable q s with | none => s | some u => grant q u s) s :=
  arbitrationPass.eq_1 s

theorem arbitrationPass_of_none {s : State} (h : ∀ q ∈ s.waiting, grantable q s = none) : arbitrationPass s = s := by
  unfold arbitrationPass
  exact foldl_of_fixed fun q hq => by rw [h q hq]

theorem requestFlash_of_denied {q : FlashRequest} {s : State}
    (hq : q ∈ (arbitrationPass { s with waiting := insertFlash q s.waiting }).waiting)
    (hreached : reached q.deadline (arbitrationPass { s with waiting := insertFlash q s.waiting }).gantryTime = true) :
    requestFlash q s = denyFlash q (arbitrationPass { s with waiting := insertFlash q s.waiting }) :=
  if_pos (by rw [List.contains_iff_mem.2 hq, hreached]; rfl)

theorem requestFlash_of_kept {q : FlashRequest} {s : State}
    (h : q ∉ (arbitrationPass { s with waiting := insertFlash q s.waiting }).waiting ∨
      reached q.deadline (arbitrationPass { s with waiting := insertFlash q s.waiting }).gantryTime = false) :
    requestFlash q s = arbitrationPass { s with waiting := insertFlash q s.waiting } := by
  refine if_neg fun hc => ?_
  obtain ⟨hmem, hreached⟩ := Bool.and_eq_true_iff.1 hc
  rcases h with h | h
  · exact h (List.contains_iff_mem.1 hmem)
  · rw [h] at hreached; exact Bool.noConfusion hreached

/-! ## The waiting list (R105) -/

/-- One flash request stands before another, deadlines being counted from a base: by deadline, then by station. -/
def FlashWithin (base : Time) (q r : FlashRequest) : Prop :=
  (q.deadline - base).toNat < (r.deadline - base).toNat ∨ (q.deadline = r.deadline ∧ q.station ≤ r.station)

theorem FlashWithin.trans {base : Time} {p q r : FlashRequest} (hpq : FlashWithin base p q) (hqr : FlashWithin base q r) :
    FlashWithin base p r := by
  rcases hpq with hpq | ⟨hd, hs⟩ <;> rcases hqr with hqr | ⟨hd', hs'⟩
  · exact .inl (hpq.trans hqr)
  · exact .inl (hd' ▸ hpq)
  · exact .inl (hd.symm ▸ hqr)
  · exact .inr ⟨hd.trans hd', hs.trans hs'⟩

theorem FlashWithin.of_not {base : Time} {q r : FlashRequest} (h : ¬FlashWithin base q r) : FlashWithin base r q := by
  obtain ⟨hd, hs⟩ := not_or.1 h
  rcases Nat.lt_or_eq_of_le (Nat.not_lt.1 hd) with hlt | heq
  · exact .inl hlt
  · have hdeadline := eq_of_same_distance heq
    exact .inr ⟨hdeadline, le_of_lt (not_le.1 fun hle => hs ⟨hdeadline.symm, hle⟩)⟩

/-- A flash request stands before one that arrives. -/
def flashBefore (q r : FlashRequest) : Bool :=
  earlier q.deadline r.deadline || (q.deadline == r.deadline && decide (q.station.val ≤ r.station.val))

theorem insertFlash_cons (r q : FlashRequest) (rest : List FlashRequest) : insertFlash r (q :: rest) =
    if flashBefore q r then q :: insertFlash r rest else r :: q :: rest := rfl

theorem flashBefore_iff {base : Time} {q r : FlashRequest} (hq : (q.deadline - base).toNat < 2 ^ 47)
    (hr : (r.deadline - base).toNat < 2 ^ 47) : flashBefore q r = true ↔ FlashWithin base q r := by
  have hearlier : earlier q.deadline r.deadline = true ↔ (q.deadline - base).toNat < (r.deadline - base).toNat := by
    rw [earlier, Bool.not_eq_true', ← Bool.not_eq_true, reached_iff_from_base hr hq, Nat.not_le]
  simp only [flashBefore, Bool.or_eq_true, hearlier, Bool.and_eq_true, beq_iff_eq, decide_eq_true_eq, FlashWithin,
    Fin.le_def]

theorem insertFlash_split (r : FlashRequest) : ∀ l : List FlashRequest,
    ∃ before after, l = before ++ after ∧ insertFlash r l = before ++ r :: after
  | [] => ⟨[], [], rfl, rfl⟩
  | q :: rest => by
    obtain ⟨before, after, hl, hinsert⟩ := insertFlash_split r rest
    rw [insertFlash_cons]
    split
    · exact ⟨q :: before, after, congrArg (q :: ·) hl, congrArg (q :: ·) hinsert⟩
    · exact ⟨[], q :: rest, rfl, rfl⟩

theorem mem_insertFlash {r q : FlashRequest} {l : List FlashRequest} (h : q ∈ insertFlash r l) : q = r ∨ q ∈ l := by
  obtain ⟨before, after, hl, hinsert⟩ := insertFlash_split r l
  rw [hinsert] at h
  rw [hl]
  simpa [or_left_comm] using h

theorem pairwise_insertFlash {base : Time} {r : FlashRequest} (hr : (r.deadline - base).toNat < 2 ^ 47) :
    ∀ {l : List FlashRequest}, (∀ q ∈ l, (q.deadline - base).toNat < 2 ^ 47) → l.Pairwise (FlashWithin base) →
      (insertFlash r l).Pairwise (FlashWithin base)
  | [], _, _ => List.pairwise_singleton _ _
  | x :: rest, hrange, hordered => by
    obtain ⟨hx, hrest⟩ := List.forall_mem_cons.1 hrange
    obtain ⟨hbehind, hpair⟩ := List.pairwise_cons.1 hordered
    rw [insertFlash_cons]
    split
    · next hbefore =>
      rw [flashBefore_iff hx hr] at hbefore
      refine List.pairwise_cons.2 ⟨fun q hq => ?_, pairwise_insertFlash hr hrest hpair⟩
      rcases mem_insertFlash hq with rfl | hq
      · exact hbefore
      · exact hbehind q hq
    · next hbefore =>
      rw [flashBefore_iff hx hr] at hbefore
      refine List.pairwise_cons.2 ⟨fun q hq => ?_, hordered⟩
      rcases List.mem_cons.1 hq with rfl | hq
      · exact .of_not hbefore
      · exact (FlashWithin.of_not hbefore).trans (hbehind q hq)

/-- Settles O46: the interlock and the glare test by their `any`s, the choice of a unit as the first good one, the waiting
list as an insertion into an ordered list. -/
theorem glareInterlock : Obligations.GlareInterlock :=
  ⟨fun _ _ _ => barred_iff, fun _ _ => ⟨fun _ => grantable_eq_some_iff, grantable_eq_none_iff⟩,
    fun s => ⟨fun h => arbitrationPass_of_none fun q hq => absurd (h ▸ hq) List.not_mem_nil, arbitrationPass_of_none,
      arbitrationPass_eq s⟩,
    fun _ _ => ⟨requestFlash_of_denied, requestFlash_of_kept⟩,
    fun r l _ => ⟨insertFlash_split r l, fun hr hrange hordered => pairwise_insertFlash hr hrange hordered⟩, fun _ _ => isGlared_iff⟩

/-! ## Flashes and exposures (R81, R82, R108, R110, R112, R120) -/

theorem beginExposure_of_run {st : StationId} {length : Nat} {unit : Option UnitId} {dark : Bool} {r : Run} {s : State}
    (hrun : s.stations[st].run = some r) : beginExposure st length unit dark s =
      setOpenExposure st (some { number := r.exposures.length + 1, start := s.gantryTime
                                 finish := plusUs s.gantryTime length })
        (lingerOn st (emit (.trigger st s.ports[st].nextTag length)
          (modPort st (fun p => { p with
              nextTag := p.nextTag + 1
              awaited := p.awaited ++ [{ number := r.exposures.length + 1, tag := s.ports[st].nextTag, phase := .opened }] })
            (setRun st { r with
              wait := .exposure (plusUs s.gantryTime length)
              exposures := r.exposures ++ [{ start := s.gantryTime, length := length, unit := unit
                                             tag := s.ports[st].nextTag, dark := dark, glared := isGlared st s
                                             clipped := false, truncated := false, received := false
                                             outcome := .pending, card := none, tileLength := none }] } s)))) := by
  unfold beginExposure
  rw [hrun]
  dsimp only
  rw [modRun_eq_setRun hrun]

/-- Settles O47: the deadline by the first request whose deadline has come; a grant and an exposure's beginning by their
updates. -/
theorem flashesAndExposures : Obligations.FlashesAndExposures := by
  refine ⟨?deadline, fun _ _ _ => rfl, fun st length unit dark r s hrun => beginExposure_of_run hrun⟩
  intro m s b hlive
  have hexec := execFlashDeadline.eq_1 m s
  refine ⟨fun r hr => hexec.trans (event_of_effect hlive ?_), fun hnone => hexec.trans (event_of_effect hlive ?_)⟩
  · rw [hr]
    rfl
  · have hfind : b.waiting.find? (fun r => reached r.deadline b.gantryTime) = none :=
      List.find?_eq_none.2 fun r hr => Bool.eq_false_iff.1 (hnone r hr)
    rw [hfind]

end Sys2Proof.Machine
end

section
/-! PROOFS. The camera ports: frames, frame timers and the crop window (06, R119 to R130). -/

namespace Sys2Proof.Machine

open Sys2Proof

/-! ## Frame arrivals (R119, R122, R129) -/

theorem modPort_modPort (st : StationId) (f g : Port → Port) (s : State) :
    modPort st g (modPort st f s) = modPort st (fun p => g (f p)) s := by
  simp [modPort]

theorem frameFit_iff {f : Frame} : frameFit f = true ↔
    (f.depth = 8 ∨ f.depth = 16) ∧ 1 ≤ f.width ∧ f.width ≤ 4096 ∧ 1 ≤ f.height ∧ f.height ≤ 4096 ∧
      f.data.length = f.width * f.height * (f.depth / 8) := by
  simp [frameFit, within, pixelBytes, and_assoc]

theorem frameReceived_mover (st : StationId) (number : Nat) (s : State) :
    (frameReceived st number s).mover = s.mover := by
  unfold frameReceived modExposure
  split <;> rfl

theorem frameReceived_plan (st : StationId) (number : Nat) (s : State) :
    (frameReceived st number s).stations[st].plan = s.stations[st].plan := by
  unfold frameReceived modExposure
  split
  · rfl
  · simp [modRun]

theorem stationTrack_congr {st : StationId} {s t : State} (h : t.stations[st].plan = s.stations[st].plan) :
    stationTrack st t = stationTrack st s := by
  rw [stationTrack, h, stationTrack]

theorem portCause_congr {st : StationId} {s t : State} (h : t.stations[st].plan = s.stations[st].plan) (code : CauseCode)
    (pid : Option PassageId) (detail : Nat) : portCause code st pid detail t = portCause code st pid detail s := by
  rw [portCause, stationTrack_congr h, portCause]

/-- The port has heard its camera again, and the entry of an exposure has left its awaited list. -/
def heard (st : StationId) (number : Nat) (s : State) : State :=
  modPort st (fun p => { p with silent := 0, awaited := p.awaited.filter fun a => a.number != number }) s

section
variable {st : StationId} {f : Frame} {s : State}

theorem frameArrives_of_unconfigured (h : s.ports[st].configured = false) : frameArrives st f s = s :=
  if_neg (Bool.eq_false_iff.1 h)

section
variable (hconf : s.ports[st].configured = true)
include hconf

theorem frameArrives_of_unknown_tag (h : ∀ a ∈ s.ports[st].awaited, a.tag ≠ f.tag) : frameArrives st f s =
    frameMismatch st f.tag (runId st s) (modPort st (fun p => { p with silent := 0 }) s) := by
  have hnone : awaitedTag st f.tag (modPort st (fun p => { p with silent := 0 }) s) = none := by
    simpa [awaitedTag, List.find?_eq_none] using h
  unfold frameArrives
  rw [if_pos hconf]
  dsimp only
  rw [hnone]
  rfl

theorem frameArrives_of_awaited {a : Awaited} (h : s.ports[st].awaited.find? (fun a => a.tag == f.tag) = some a) :
    frameArrives st f s = takeFrame st f a (modPort st (fun p => { p with silent := 0 }) s) := by
  have hsome : awaitedTag st f.tag (modPort st (fun p => { p with silent := 0 }) s) = some a := by
    simpa [awaitedTag] using h
  unfold frameArrives
  rw [if_pos hconf]
  dsimp only
  rw [hsome]

end

theorem takeFrame_of_unfit {a : Awaited} (h : ¬frameFit f = true) :
    takeFrame st f a (modPort st (fun p => { p with silent := 0 }) s) =
      frameMismatch st f.tag (runId st s) (reportTile st a.number (.plain .mismatched false)
        (frameReceived st a.number (heard st a.number s))) := by
  unfold takeFrame dropAwaited
  rw [modPort_modPort]
  exact if_neg h

theorem takeFrame_of_fit {a : Awaited} {r : Run} {plan : StationPlan} (h : frameFit f = true)
    (hrun : (frameReceived st a.number (heard st a.number s)).stations[st].run = some r)
    (hplan : s.stations[st].plan = some plan) :
    takeFrame st f a (modPort st (fun p => { p with silent := 0 }) s) =
      placeTile (cropTile st a.number plan r f) (frameReceived st a.number (heard st a.number s)) := by
  have hplan' : (frameReceived st a.number (heard st a.number s)).stations[st].plan = some plan :=
    (frameReceived_plan st a.number _).trans hplan
  have hheard : dropAwaited st a.number (modPort st (fun p => { p with silent := 0 }) s) = heard st a.number s := by
    rw [dropAwaited, modPort_modPort, heard]
  unfold takeFrame
  dsimp only
  rw [hheard, if_pos h, hrun, hplan']

theorem placeTile_of_room {t : Tile} {mover : TileMover} (hmover : s.mover = mover) (h : mover.queue.length < 8) :
    placeTile t s = tryTake { s with mover := { mover with queue := mover.queue ++ [t] } } := by
  subst hmover
  exact if_pos h

theorem placeTile_of_full {t : Tile} {mover : TileMover} (hmover : s.mover = mover) (h : 8 ≤ mover.queue.length) :
    placeTile t s = raise (portCause .tileDropped t.station (some t.pid) t.number s)
      (reportTile t.station t.number (.plain .dropped t.clipped) s) := by
  subst hmover
  exact if_neg (Nat.not_lt.2 h)

/-! ## Frame timers (R123, R130) -/

theorem any_timerExpired_iff {number : Nat} {now : Time} {l : List Awaited} : l.any (timerExpired number now) = true ↔
    ∃ a ∈ l, a.number = number ∧ ∃ expiry, a.phase = .waiting expiry ∧ reached expiry now = true := by
  rw [List.any_eq_true]
  refine exists_congr fun a => and_congr_right fun _ => ?_
  unfold timerExpired
  cases a.phase <;> simp

/-- The timeout of an exposure's frame has been counted and raised. -/
def timedOutFrame (st : StationId) (number : Nat) (s : State) : State :=
  raise (portCause .frameTimeout st (runId st s) (s.ports[st].silent + 1) s) (modPort st (fun p => { p with
    silent := s.ports[st].silent + 1, awaited := p.awaited.filter fun a => a.number != number }) s)

theorem frameTimeout_eq (number : Nat) : frameTimeout st number s =
    if s.ports[st].silent + 1 < 3 then reportTile st number (.plain .timedOut false) (timedOutFrame st number s)
    else cameraSilent st (timedOutFrame st number s) := by
  simp only [frameTimeout, dropAwaited, modPort_modPort]
  rfl

end

theorem frameReceived_succ (st : StationId) (n : Nat) (s : State) : frameReceived st (n + 1) s = modRun st (fun r => { r with
    exposures := r.exposures.modify n fun e => { e with received := true } }) s := rfl

/-- Settles O48: an arrival by whether the port is configured, the tag awaited, the frame fit and the queue full; a timer by
whether an awaited entry's has expired and how many frames were missed. -/
theorem frames : Obligations.Frames := by
  refine ⟨?events, fun st s => ⟨fun n => frameReceived_succ st n s, fun _ _ => rfl⟩, fun _ _ => rfl⟩
  intro m st f s b pid cause heard fit hlive
  have harrival := execFrameArrival.eq_1 m st f s
  refine ⟨fun hconf => ?_, fun hconf hunknown => ?_, fun a hconf ha => ?_, fun number => ?_⟩
  · exact harrival.trans (event_of_effect hlive (frameArrives_of_unconfigured hconf))
  · exact harrival.trans (event_of_effect hlive (frameArrives_of_unknown_tag hconf hunknown))
  · have hawaited := frameArrives_of_awaited hconf ha
    intro received
    refine ⟨fun hunfit => ?_, fun r plan hfit hrun hplan => ?_⟩
    · exact harrival.trans (event_of_effect hlive
        (hawaited.trans (takeFrame_of_unfit fun h => hunfit (frameFit_iff.1 h))))
    · intro tile
      have htaken := hawaited.trans (takeFrame_of_fit (frameFit_iff.2 hfit) hrun hplan)
      have hmover : received.mover = b.mover := frameReceived_mover st a.number _
      have hcause := portCause_congr (s := b) (t := received) (frameReceived_plan st a.number _)
      exact ⟨fun hroom => harrival.trans (event_of_effect hlive (htaken.trans (placeTile_of_room hmover hroom))),
        fun hfull => harrival.trans (event_of_effect hlive (htaken.trans ((placeTile_of_full hmover hfull).trans
          (congrArg (fun c => raise c (reportTile st a.number (.plain .dropped tile.clipped) received))
            (hcause .tileDropped (some r.pid) a.number)))))⟩
  · intro count timed
    have htimer := execFrameTimerExpiry.eq_1 m st number s
    refine ⟨fun hexpired => ?_, fun hnot => htimer.trans (event_of_effect hlive (if_neg fun hany => ?_))⟩
    · have htimeout : exec (.frameTimerExpiry m st number) s = .next (conclude (frameTimeout st number b)) :=
        htimer.trans (event_of_effect hlive (if_pos (any_timerExpired_iff.2 hexpired)))
      rw [htimeout, frameTimeout_eq]
      exact ⟨fun hfew => congrArg (fun s => Host.Outcome.next (conclude s)) (if_pos hfew),
        fun hmany => congrArg (fun s => Host.Outcome.next (conclude s)) (if_neg (Nat.not_lt.2 hmany))⟩
    · obtain ⟨a, ha, hnumber, expiry, hphase, hreached⟩ := any_timerExpired_iff.1 hany
      exact Bool.false_ne_true ((hnot a ha hnumber expiry hphase).symm.trans hreached)

/-! ## The crop window (R126, R127, R128) -/

theorem clamp_of_kept {start : Int} {length limit : Nat} (h : max 0 start < min (start + length) limit) :
    clamp start length limit =
      ((max 0 start).toNat, (min (start + length) (limit : Int) - max 0 start).toNat) := if_pos h

theorem clamp_of_none {start : Int} {length limit : Nat} (h : ¬max 0 start < min (start + length) (limit : Int)) :
    clamp start length limit = (0, 0) := if_neg h

theorem clamp_spec (start : Int) (length limit : Nat) :
    (clamp start length limit).1 + (clamp start length limit).2 ≤ limit ∧ (clamp start length limit).2 ≤ length ∧
    (0 ≤ start → start + length ≤ limit → 0 < length → clamp start length limit = (start.toNat, length)) ∧
    (start + length ≤ 0 ∨ (limit : Int) ≤ start → clamp start length limit = (0, 0)) ∧
    (start < limit → 0 < start + length → 0 < length → 0 < limit →
      ((clamp start length limit).1 : Int) = max 0 start ∧
      (((clamp start length limit).1 + (clamp start length limit).2 : Nat) : Int) = min (start + length) limit) := by
  by_cases hkept : max 0 start < min (start + length) (limit : Int)
  · rw [clamp_of_kept hkept]
    simp only [Prod.mk.injEq]
    refine ⟨?_, ?_, fun h0 hl hp => ⟨?_, ?_⟩, fun h => ⟨?_, ?_⟩, fun h1 h2 h3 h4 => ⟨?_, ?_⟩⟩ <;> omega
  · rw [clamp_of_none hkept]
    refine ⟨Nat.zero_le _, Nat.zero_le _, fun h0 hl hp => ?_, fun _ => rfl, fun h1 h2 h3 h4 => ?_⟩ <;> omega

theorem cropTile_of_kept {st : StationId} {n : Nat} {plan : StationPlan} {r : Run} {f : Frame}
    (hcols : (clamp plan.cropLeft plan.cropWidth f.width).2 ≠ 0)
    (hrows : (clamp (topRow plan r) plan.cropHeight f.height).2 ≠ 0) :
    let cols := clamp plan.cropLeft plan.cropWidth f.width
    let rows := clamp (topRow plan r) plan.cropHeight f.height
    cropTile st n plan r f =
      { station := st, number := n, pid := r.pid, sighting := r.sighting
        clipped := decide (cols.2 < plan.cropWidth) || decide (rows.2 < plan.cropHeight)
        bytes := tileHeader cols.2 rows.2 f.depth cols.1 rows.1 f.width f.height ++
          keptPixels f cols.1 rows.1 cols.2 rows.2 } := by
  simp [cropTile, hcols, hrows]

theorem cropTile_of_empty {st : StationId} {n : Nat} {plan : StationPlan} {r : Run} {f : Frame}
    (h : (clamp plan.cropLeft plan.cropWidth f.width).2 = 0 ∨ (clamp (topRow plan r) plan.cropHeight f.height).2 = 0) :
    cropTile st n plan r f =
      { station := st, number := n, pid := r.pid, sighting := r.sighting
        clipped := decide (0 < plan.cropWidth) || decide (0 < plan.cropHeight)
        bytes := tileHeader 0 0 f.depth 0 0 f.width f.height } := by
  simp [cropTile, h, keptPixels]

theorem topRow_eq (plan : StationPlan) (r : Run) : topRow plan r =
    (match r.topBeam with | some beam => (plan.heights.getD beam 0 : Int) | none => (plan.testRow : Int)) -
      (plan.cropHeight / 2 : Nat) := by
  unfold topRow centreRow
  cases r.topBeam <;> rfl

/-- The byte of one chunk in a list of chunks of one length. -/
theorem getElem?_flatMap_of_const {α β : Type} {f : α → List β} {n j : Nat} (hj : j < n) : ∀ {l : List α},
    (∀ a ∈ l, (f a).length = n) → ∀ i, (l.flatMap f)[i * n + j]? = l[i]?.bind fun a => (f a)[j]?
  | [], _, i => by simp
  | a :: l, h, i => by
    obtain ⟨ha, hl⟩ := List.forall_mem_cons.1 h
    rw [List.flatMap_cons]
    cases i with
    | zero =>
      rw [Nat.zero_mul, Nat.zero_add, List.getElem?_append_left (by omega)]
      rfl
    | succ i =>
      have hindex : (i + 1) * n + j = (f a).length + (i * n + j) := by rw [ha, Nat.succ_mul]; omega
      rw [hindex, List.getElem?_append_right (Nat.le_add_right _ _), Nat.add_sub_cancel_left,
        getElem?_flatMap_of_const hj hl i]
      rfl

/-- A row of the kept area lies within the frame's data. -/
theorem row_within {f : Frame} {left top width height row : Nat}
    (hdata : f.data.length = f.width * f.height * (f.depth / 8)) (hwidth : left + width ≤ f.width)
    (hheight : top + height ≤ f.height) (hrow : row < height) :
    ((top + row) * f.width + left) * (f.depth / 8) + width * (f.depth / 8) ≤ f.data.length := by
  have hrows : (top + row) * f.width + (left + width) ≤ f.width * f.height :=
    calc (top + row) * f.width + (left + width) ≤ (top + row) * f.width + f.width := by omega
      _ = (top + row + 1) * f.width := (Nat.succ_mul _ _).symm
      _ ≤ f.height * f.width := Nat.mul_le_mul_right _ (by omega)
      _ = f.width * f.height := Nat.mul_comm _ _
  rw [hdata, ← Nat.add_mul]
  exact Nat.mul_le_mul_right _ (by omega)

theorem keptPixels_spec {f : Frame} {left top width height : Nat}
    (hdata : f.data.length = f.width * f.height * (f.depth / 8)) (hwidth : left + width ≤ f.width)
    (hheight : top + height ≤ f.height) :
    (keptPixels f left top width height).length = width * height * (f.depth / 8) ∧
    ∀ row col b, row < height → col < width → b < f.depth / 8 →
      (keptPixels f left top width height)[(row * width + col) * (f.depth / 8) + b]? =
        f.data[((top + row) * f.width + (left + col)) * (f.depth / 8) + b]? := by
  have hchunk : ∀ i ∈ List.range height,
      ((f.data.drop (((top + i) * f.width + left) * (f.depth / 8))).take (width * (f.depth / 8))).length =
        width * (f.depth / 8) := fun i hi => by
    have hrow := row_within hdata hwidth hheight (List.mem_range.1 hi)
    rw [List.length_take, List.length_drop]
    omega
  refine ⟨?_, fun row col b hrow hcol hb => ?_⟩
  · unfold keptPixels pixelBytes
    rw [List.length_flatMap, List.map_congr_left hchunk, List.map_const', List.length_range, List.sum_replicate,
      smul_eq_mul]
    ring
  · have hj : col * (f.depth / 8) + b < width * (f.depth / 8) :=
      calc col * (f.depth / 8) + b < (col + 1) * (f.depth / 8) := by rw [Nat.succ_mul]; omega
        _ ≤ width * (f.depth / 8) := Nat.mul_le_mul_right _ hcol
    have hindex : (row * width + col) * (f.depth / 8) + b =
        row * (width * (f.depth / 8)) + (col * (f.depth / 8) + b) := by ring
    have hsource : ((top + row) * f.width + (left + col)) * (f.depth / 8) + b =
        ((top + row) * f.width + left) * (f.depth / 8) + (col * (f.depth / 8) + b) := by ring
    rw [hindex, hsource]
    refine (getElem?_flatMap_of_const hj hchunk row).trans ?_
    rw [List.getElem?_range hrow]
    exact (List.getElem?_take_of_lt hj).trans List.getElem?_drop

/-- Settles O49: the clamp by whether anything is kept; the tile by whether both spans keep something; the pixels row by
row. -/
theorem cropWindow : Obligations.CropWindow := by
  refine ⟨clamp_spec, fun st n plan r f => ?tile, fun _ _ _ _ _ _ _ => rfl,
    fun f left top width height hdata hwidth hheight => keptPixels_spec hdata hwidth hheight⟩
  intro tile row cols rows
  have hrows : rows = clamp (topRow plan r) plan.cropHeight f.height :=
    congrArg (fun top => clamp top plan.cropHeight f.height) (topRow_eq plan r).symm
  refine ⟨rfl, rfl, rfl, rfl, fun hc hr => ?_, fun h => ?_⟩
  · rw [hrows] at hr ⊢
    have htile : tile = _ := cropTile_of_kept hc hr
    rw [htile]
    exact ⟨rfl, rfl⟩
  · rw [hrows] at h
    have htile : tile = _ := cropTile_of_empty h
    rw [htile]
    refine ⟨rfl, fun hsome => ?_⟩
    simpa using hsome

end Sys2Proof.Machine
end

section
/-! PROOFS. The reads of the tile mover: takes, follows, probes, the entry into DRY (07, R138 to R147). -/

namespace Sys2Proof.Machine

open Sys2Proof

/-! ## Takes, DRY, the end of a read (R138, R144, R146) -/

theorem tryTake_of_blocked {s : State} (h : s.mover.queue = [] ∨ s.mover.condition ≠ .ok ∨
    (∀ a, s.mover.cursor ≠ .at a) ∨ s.mover.phase ≠ .idle) : tryTake s = s := by
  unfold tryTake
  split
  · next a hcursor =>
    refine if_neg fun ⟨hqueue, hok, hidle⟩ => ?_
    rcases h with h | h | h | h
    · exact hqueue h
    · exact h hok
    · exact h a hcursor
    · exact h hidle
  · rfl
  · rfl

theorem enterDry_of_dry {a : Addr} {s : State} (h : s.mover.condition = .dry) : enterDry a s = s := if_pos h

theorem enterDry_of_not_dry {a : Addr} {s : State} (h : s.mover.condition ≠ .dry) : enterDry a s = raise
    { code := .chainDry, track := none, station := none, unit := none, pid := none, detail := some a }
    (latchDry { s with mover := { s.mover with condition := .dry, hold := none } }) := if_neg h

/-- A read that completes is made again: a LOOK came while it ran, and it left the chain DRY and the phase IDLE. -/
def LooksAgain (s : State) : Prop := s.mover.lookPending = true ∧ s.mover.condition = .dry ∧ s.mover.phase = .idle

theorem endRead_of_done {s : State} (h : ¬LooksAgain s) :
    endRead s = { s with mover := { s.mover with lookPending := false } } := if_neg h

theorem endRead_of_again {s : State} (h : LooksAgain s) :
    endRead s = rereadDry { s with mover := { s.mover with lookPending := false } } := if_pos h

/-! ## The judgement of a card (R139) -/

section
variable {a : Addr} {card : List Byte} {s : State}

theorem cardOwnedByDevice_iff : cardOwnedByDevice card = true ↔ card.getD 0 0 = 0x5A := by
  rw [cardOwnedByDevice, beq_iff_eq]
  exact Iff.rfl

theorem cardSumGood_iff : cardSumGood card = true ↔ card.foldl (· + ·) 0 = 0 := by
  rw [cardSumGood, beq_iff_eq]
  exact Iff.rfl

theorem judgeCard_of_not_owned (h : ¬card.getD 0 0 = 0x5A) : judgeCard a (some card) s =
    enterDry a { s with mover := { s.mover with phase := .idle } } :=
  if_pos (Bool.eq_false_iff.2 fun howned => h (cardOwnedByDevice_iff.1 howned))

section
variable (howned : card.getD 0 0 = 0x5A)
include howned

theorem judgeCard_of_bad_sum (h : ¬card.foldl (· + ·) 0 = 0) :
    judgeCard a (some card) s = hold .cardCheck .cardCheck s.mover.queue.head? a s :=
  (if_neg (Bool.ne_false_iff.2 (cardOwnedByDevice_iff.2 howned))).trans
    (if_pos (Bool.eq_false_iff.2 fun hsum => h (cardSumGood_iff.1 hsum)))

variable (hsum : card.foldl (· + ·) 0 = 0)
include hsum

/-- A card of the device with a good sum is judged by its capacity. -/
theorem judgeCard_of_good : judgeCard a (some card) s =
    if cardCapacity card < minCapacity then hold .cardEmpty .cardEmpty s.mover.queue.head? a s
    else if s.mover.withdrawn.contains a then beginMarking a card s
    else makeCurrent a card s :=
  (if_neg (Bool.ne_false_iff.2 (cardOwnedByDevice_iff.2 howned))).trans
    (if_neg (Bool.ne_false_iff.2 (cardSumGood_iff.2 hsum)))

theorem judgeCard_of_small (h : leAt card 4 4 < 4096) :
    judgeCard a (some card) s = hold .cardEmpty .cardEmpty s.mover.queue.head? a s :=
  (judgeCard_of_good howned hsum).trans (if_pos h)

variable (hcapacity : 4096 ≤ leAt card 4 4)
include hcapacity

theorem judgeCard_of_withdrawn (h : a ∈ s.mover.withdrawn) :
    judgeCard a (some card) s = { s with mover := { s.mover with
      phase := .marking, withdrawn := s.mover.withdrawn.filter (fun x => x != a)
      marked := some { address := a, next := BitVec.ofNat 64 (leAt card 16 8) } } } :=
  (judgeCard_of_good howned hsum).trans
    ((if_neg (Nat.not_lt.2 hcapacity)).trans (if_pos (List.contains_iff_mem.2 h)))

theorem judgeCard_of_kept {tile : Tile} {rest : List Tile} (h : a ∉ s.mover.withdrawn)
    (hqueue : s.mover.queue = tile :: rest) : judgeCard a (some card) s = { s with mover := { s.mover with
      phase := .writing, queue := rest
      current := some { address := a, capacity := leAt card 4 4, buffer := BitVec.ofNat 64 (leAt card 8 8)
                        tile := tile } } } := by
  have hcurrent : makeCurrent a card s = { s with mover := { s.mover with
      phase := .writing, queue := rest
      current := some { address := a, capacity := leAt card 4 4, buffer := BitVec.ofNat 64 (leAt card 8 8)
                        tile := tile } } } := by
    unfold makeCurrent modMover
    dsimp only
    rw [hqueue]
    rfl
  exact (judgeCard_of_good howned hsum).trans ((if_neg (Nat.not_lt.2 hcapacity)).trans
    ((if_neg fun hc => h (List.contains_iff_mem.1 hc)).trans hcurrent))

end

theorem takeCompletion_of_at {read : Option (List Byte)} (h : s.mover.cursor = .at a) :
    takeCompletion read s = judgeCard a read s := by
  rw [takeCompletion, h]

/-! ## Follows and probes (R142, R146) -/

theorem followCompletion_of_after {next : Option Addr} (h : s.mover.cursor = .after a) :
    followCompletion next s = followed a next s := by
  rw [followCompletion, h]

theorem followed_of_end : followed a (some 0) s = enterDry a { s with mover := { s.mover with phase := .idle } } :=
  rfl

theorem followed_of_next {n : Addr} (h : n ≠ 0) : followed a (some n) s =
    tryTake { s with mover := { s.mover with phase := .idle, cursor := .at n, condition := .ok } } := if_neg h

theorem probed_of_device : probed (some 0x5A) s =
    tryTake { s with mover := { s.mover with phase := .idle, condition := .ok } } := rfl

theorem probed_of_other {owner : Option Byte} (h : owner ≠ some 0x5A) :
    probed owner s = { s with mover := { s.mover with phase := .idle } } := if_neg h

end

/-! ## The completions -/

section
variable (m : Moment) (s : State)

theorem exec_takeReadCompletion (card : Option (List Byte)) : exec (.takeReadCompletion m card) s =
    event m (completeMoverRead .taking (takeCompletion card)) s := execTakeReadCompletion.eq_1 m card s

theorem exec_followReadCompletion (next : Option Addr) : exec (.followReadCompletion m next) s =
    event m (completeMoverRead .following (followCompletion next)) s := execFollowReadCompletion.eq_1 m next s

theorem exec_probeReadCompletion (owner : Option Byte) : exec (.probeReadCompletion m owner) s =
    event m (completeMoverRead .probing (probed owner)) s := execProbeReadCompletion.eq_1 m owner s

end

section
variable {m : Moment} {s t : State} {a : Addr} (hlive : (taken m s).device ≠ .failed)
include hlive

/-- The completion of a take that runs, by what the judgement of the card comes to. -/
theorem exec_take_of_judged {card : Option (List Byte)} (hnot : .taking ∉ (taken m s).mover.abandoned)
    (hphase : (taken m s).mover.phase = .taking) (hcursor : (taken m s).mover.cursor = .at a)
    (h : judgeCard a card (taken m s) = t) :
    exec (.takeReadCompletion m card) s = .next (conclude (endRead t)) :=
  (exec_takeReadCompletion m s card).trans (event_of_effect hlive ((completeMoverRead_of_phase hnot hphase).trans
    (congrArg endRead ((takeCompletion_of_at hcursor).trans h))))

theorem exec_follow_of_followed {next : Option Addr} (hnot : .following ∉ (taken m s).mover.abandoned)
    (hphase : (taken m s).mover.phase = .following) (hcursor : (taken m s).mover.cursor = .after a)
    (h : followed a next (taken m s) = t) :
    exec (.followReadCompletion m next) s = .next (conclude (endRead t)) :=
  (exec_followReadCompletion m s next).trans (event_of_effect hlive ((completeMoverRead_of_phase hnot hphase).trans
    (congrArg endRead ((followCompletion_of_after hcursor).trans h))))

theorem exec_probe_of_probed {owner : Option Byte} (hnot : .probing ∉ (taken m s).mover.abandoned)
    (hphase : (taken m s).mover.phase = .probing) (h : probed owner (taken m s) = t) :
    exec (.probeReadCompletion m owner) s = .next (conclude (endRead t)) :=
  (exec_probeReadCompletion m s owner).trans (event_of_effect hlive ((completeMoverRead_of_phase hnot hphase).trans
    (congrArg endRead h)))

end

/-- Settles O50: a take by its four conditions; each completion by whether its read runs or was abandoned, a card by the
first case of R139 that applies; the end of a read by whether it is made again. -/
theorem moverReads : Obligations.MoverReads := by
  refine ⟨fun s => ⟨fun a hlive hqueue hok hcursor hidle => tryTake_of_ready hlive hcursor hqueue hok hidle,
    tryTake_of_blocked, fun _ => enterDry_of_dry, fun _ => enterDry_of_not_dry⟩, ?completions, fun s => ?ends⟩
  case completions =>
    intro m s b idle held head hlive
    refine ⟨fun a hnot hphase hcursor => ?_, fun a hnot hphase hcursor => ?_, fun hnot hphase => ?_,
      fun card next owner => ?_⟩
    · have htake := fun card t => exec_take_of_judged (card := card) (t := t) hlive hnot hphase hcursor
      exact ⟨htake none _ rfl, fun card => ⟨fun h => htake _ _ (judgeCard_of_not_owned h),
        fun howned h => htake _ _ (judgeCard_of_bad_sum howned h),
        fun howned hsum h => htake _ _ (judgeCard_of_small howned hsum h),
        fun howned hsum hcapacity h => htake _ _ (judgeCard_of_withdrawn howned hsum hcapacity h),
        fun tile rest howned hsum hcapacity h hqueue =>
          htake _ _ (judgeCard_of_kept howned hsum hcapacity h hqueue)⟩⟩
    · have hfollow := fun next t => exec_follow_of_followed (next := next) (t := t) hlive hnot hphase hcursor
      exact ⟨hfollow none _ rfl, hfollow (some 0) _ followed_of_end, fun n hn => hfollow (some n) _ (followed_of_next hn)⟩
    · have hprobe := fun owner t => exec_probe_of_probed (owner := owner) (t := t) hlive hnot hphase
      exact ⟨hprobe _ _ probed_of_device, fun owner h => hprobe owner _ (probed_of_other h)⟩
    · have htake := exec_takeReadCompletion m s card
      have hfollow := exec_followReadCompletion m s next
      have hprobe := exec_probeReadCompletion m s owner
      exact ⟨fun hnot hphase => htake.trans (event_of_effect hlive (completeMoverRead_of_other hnot hphase)),
        fun hnot hphase => hfollow.trans (event_of_effect hlive (completeMoverRead_of_other hnot hphase)),
        fun hnot hphase => hprobe.trans (event_of_effect hlive (completeMoverRead_of_other hnot hphase)),
        fun h => htake.trans (event_of_effect hlive (completeMoverRead_of_abandoned h)),
        fun h => hfollow.trans (event_of_effect hlive (completeMoverRead_of_abandoned h)),
        fun h => hprobe.trans (event_of_effect hlive (completeMoverRead_of_abandoned h))⟩
  case ends =>
    exact ⟨endRead_of_done, fun again hcursor => (endRead_of_again again).trans (rereadDry_of_absent hcursor),
      fun a again hlive hcursor => (endRead_of_again again).trans (rereadDry_of_at hlive hcursor),
      fun a again hlive hcursor => (endRead_of_again again).trans (rereadDry_of_after hlive hcursor)⟩

end Sys2Proof.Machine
end

section
/-! PROOFS. The writes of the tile mover: their ends, their bus errors, what stands in host memory after them (07, R140 to
R143). -/

namespace Sys2Proof.Machine

open Sys2Proof

/-! ## Writes and bus errors (log 8, log 21) -/

/-- The bytes of a write that lands whole stand where no later write of the list reaches. -/
theorem busRead_landRuns {runs before after : List (Addr × List Byte)} {r : Addr × List Byte} {n : Nat} {s : State}
    (hwf : Memory.wf s.mem = true) (hlen : ∀ q ∈ runs, q.2.length ≤ 2 ^ 64) (hn : runsLength runs ≤ n)
    (hruns : runs = before ++ r :: after)
    (hafter : ∀ i, i < r.2.length → ∀ q ∈ after, outside (offsetAddr r.1 i).toNat q.1 q.2.length) :
    busRead r.1 r.2.length (landRuns runs n s) = r.2 :=
  busRead_of_reads ((landRuns_spec runs hlen n s hwf hn).2.2 before r after hruns hafter)

theorem landRuns_mover (runs : List (Addr × List Byte)) (n : Nat) (s : State) :
    (landRuns runs n s).mover = s.mover := by
  rw [landRuns_frame]

/-- A bus write whose first error, if any, comes after `n` bytes. -/
theorem busWrite_spec {a : Addr} {bytes : List Byte} {n : Nat} {s : State} (hwf : Memory.wf s.mem = true)
    (hlen : bytes.length ≤ 2 ^ 64) (hn : n ≤ bytes.length) (hok : ∀ i, i < n → (offsetAddr a i).toNat ∉ s.writeErrors)
    (hbad : n < bytes.length → (offsetAddr a n).toNat ∈ s.writeErrors) :
    (busWrite a bytes s).1 =
      { s with mem := (busWrite a bytes s).1.mem, outputs := s.outputs ++ [.hostWrite a (bytes.take n)] } ∧
    ((busWrite a bytes s).2 = true ↔ n = bytes.length) ∧ busRead a n (busWrite a bytes s).1 = bytes.take n ∧
    ∀ x, outside x a n → Memory.read (busWrite a bytes s).1.mem x = Memory.read s.mem x := by
  obtain ⟨hlanded, hreads, hothers⟩ := Memory.writeUntilError_spec s.writeErrors bytes n s.mem a hwf hlen hn hok hbad
  have hlength : (bytes.take n).length = n := by rw [List.length_take]; omega
  refine ⟨?_, ?_, ?_, hothers⟩
  · rw [busWrite, hlanded]
    rfl
  · rw [busWrite, hlanded]
    exact beq_iff_eq
  · have hread := busRead_of_reads (a := a) (bytes := bytes.take n) (t := (busWrite a bytes s).1) fun i hi => by
      rw [hlength] at hi
      refine (hreads i hi).trans ?_
      simp only [List.getD_eq_getElem?_getD, List.getElem?_take_of_lt hi]
    rwa [hlength] at hread

/-! ## The ends of the writes (R140, R141, R142) -/

theorem afterMarking_of_head {c : MarkedCard} {head : Addr} {s : State} (h : s.mover.pendingHead = some head) :
    afterMarking c s = tryTake { s with mover := { s.mover with cursor := .at head, pendingHead := none } } := by
  rw [afterMarking, h]
  rfl

theorem afterMarking_of_next {c : MarkedCard} {s : State} (h : s.mover.pendingHead = none) (hnext : c.next ≠ 0) :
    afterMarking c s = tryTake { s with mover := { s.mover with cursor := .at c.next } } := by
  rw [afterMarking, h]
  exact if_neg hnext

theorem afterMarking_of_end {c : MarkedCard} {s : State} (h : s.mover.pendingHead = none) (hnext : c.next = 0) :
    afterMarking c s = enterDry c.address { s with mover := { s.mover with cursor := .after c.address } } := by
  rw [afterMarking, h]
  exact if_pos hnext

theorem afterWrite_of_head {c : CurrentCard} {head : Addr} {s : State} (h : s.mover.pendingHead = some head) :
    afterWrite c s = tryTake { s with mover := { s.mover with cursor := .at head, pendingHead := none } } := by
  rw [afterWrite, h]
  rfl

theorem afterWrite_of_chain {c : CurrentCard} {s : State} (h : s.mover.pendingHead = none) (hlive : s.device ≠ .failed) :
    afterWrite c s = { s with
      mover := { s.mover with cursor := .after c.address, phase := .following }
      outputs := s.outputs ++ [.hostRead (c.address + 16) 8] } := by
  rw [afterWrite, h]
  exact beginRead_of_live (s := { s with mover := { s.mover with cursor := .after c.address } }) hlive

/-- A marking has landed, and the mover is free of it. -/
def markingDone (c : MarkedCard) (s : State) : State :=
  modMover (fun m => { m with phase := .idle, marked := none }) (landRuns (markingRuns c) 2 s)

theorem markingDone_pendingHead (c : MarkedCard) (s : State) : (markingDone c s).mover.pendingHead = s.mover.pendingHead := by
  change (landRuns (markingRuns c) 2 s).mover.pendingHead = _
  rw [landRuns_mover]

section
variable {m : Moment} {s : State} (hlive : (taken m s).device ≠ .failed)
include hlive

theorem exec_markingCompletion_of_marking {c : MarkedCard} (hphase : (taken m s).mover.phase = .marking)
    (hmarked : (taken m s).mover.marked = some c) :
    exec (.markingCompletion m) s = .next (conclude (afterMarking c (markingDone c (taken m s)))) := by
  refine (execMarkingCompletion.eq_1 m s).trans (event_of_effect hlive ?_)
  rw [hphase, hmarked]
  rfl

theorem exec_writeCompletion_of_writing {c : CurrentCard} (hphase : (taken m s).mover.phase = .writing)
    (hcurrent : (taken m s).mover.current = some c) :
    exec (.writeCompletion m) s = .next (conclude (finishWrite c (taken m s))) := by
  refine (execWriteCompletion.eq_1 m s).trans (event_of_effect hlive ?_)
  rw [hphase, hcurrent]

theorem exec_writeBusError_of_marking {c : MarkedCard} (hphase : (taken m s).mover.phase = .marking)
    (hmarked : (taken m s).mover.marked = some c) (landed : Nat) :
    exec (.writeBusError m landed) s = .next (conclude (failMarking c landed (taken m s))) := by
  refine (execWriteBusError.eq_1 m landed s).trans (event_of_effect hlive ?_)
  rw [hphase, hmarked]

theorem exec_writeBusError_of_writing {c : CurrentCard} (hphase : (taken m s).mover.phase = .writing)
    (hcurrent : (taken m s).mover.current = some c) (landed : Nat) :
    exec (.writeBusError m landed) s = .next (conclude (failWriting c landed (taken m s))) := by
  refine (execWriteBusError.eq_1 m landed s).trans (event_of_effect hlive ?_)
  rw [hphase, hcurrent]

/-- No write ends where none runs. -/
theorem exec_writes_of_idle (hphase : (taken m s).mover.phase = .idle) (landed : Nat) :
    exec (.markingCompletion m) s = .next (conclude (taken m s)) ∧
    exec (.writeCompletion m) s = .next (conclude (taken m s)) ∧
    exec (.writeBusError m landed) s = .next (conclude (taken m s)) := by
  refine ⟨(execMarkingCompletion.eq_1 m s).trans (event_of_effect hlive ?_),
    (execWriteCompletion.eq_1 m s).trans (event_of_effect hlive ?_),
    (execWriteBusError.eq_1 m landed s).trans (event_of_effect hlive ?_)⟩
  all_goals rw [hphase]

end

/-! ## Bus errors of a write (R143) -/

/-- The hold of a failed card, unless the device has entered FAILED. -/
theorem holdFailedCard_eq (tile : Option Tile) (a : Addr) (s : State) : holdFailedCard tile a s =
    if s.device = .failed then s else raise
      { code := .cardWrite, track := tile.map fun t => stationTrack t.station s, station := tile.map Tile.station
        unit := none, pid := tile.map Tile.pid, detail := some a }
      { s with mover := { s.mover with
        phase := .idle, current := none, marked := none, condition := .held, hold := some .cardWrite
        drainContext := some (s.mover.drainContext.getD a)
        cursor := match s.mover.pendingHead with | some head => .at head | none => .after a
        pendingHead := none } } := rfl

theorem failMarking_eq (c : MarkedCard) (landed : Nat) (s : State) : failMarking c landed s =
    holdFailedCard none c.address (endWrites
      (if 1 ≤ landed then landRuns (markingRuns c) (min landed 1) s
       else attemptRuns [(c.address, [0])] (landRuns (markingRuns c) (min landed 1) s))) := by
  have howner : failedAtOwner (markingRuns c) landed = true ↔ 1 ≤ landed := by
    rw [failedAtOwner, decide_eq_true_iff]
    change min landed 1 + 1 = 2 ↔ _
    omega
  exact congrArg (fun t => holdFailedCard none c.address (endWrites t)) (if_congr howner rfl rfl)

/-- The writes of a card: the tile's bytes, the device fields, the owner byte (R141). -/
theorem runsLength_writingRuns (c : CurrentCard) : runsLength (writingRuns c) = (c.tile.bytes.take c.capacity).length + 11 := by
  rw [writingRuns_eq]
  simp [runsLength, length_le]

theorem failedRuns_eq (c : CurrentCard) : failedRuns c =
    [(offsetAddr c.address 2, [4, byteOf c.tile.station.val]),
     (offsetAddr c.address 24, le 4 (c.tile.bytes.take c.capacity).length ++ le 2 c.tile.pid.toNat ++
       [byteOf c.tile.number, byteOf c.tile.sighting]), (c.address, [0])] := rfl

theorem failWriting_eq (c : CurrentCard) (landed : Nat) (s : State) : failWriting c landed s =
    holdFailedCard (some c.tile) c.address (reportTile c.tile.station c.tile.number (cardReport .failed c) (endWrites
      (if (c.tile.bytes.take c.capacity).length + 10 ≤ landed
       then landRuns (writingRuns c) (min landed ((c.tile.bytes.take c.capacity).length + 10)) s
       else attemptRuns (failedRuns c)
         (landRuns (writingRuns c) (min landed ((c.tile.bytes.take c.capacity).length + 10)) s)))) := by
  have hbefore : landedBefore (writingRuns c) landed = min landed ((c.tile.bytes.take c.capacity).length + 10) := by
    rw [landedBefore, runsLength_writingRuns]
    rfl
  have howner : failedAtOwner (writingRuns c) landed = true ↔ (c.tile.bytes.take c.capacity).length + 10 ≤ landed := by
    rw [failedAtOwner, decide_eq_true_iff, hbefore, runsLength_writingRuns]
    omega
  unfold failWriting
  dsimp only
  rw [hbefore]
  exact congrArg (fun t => holdFailedCard (some c.tile) c.address
    (reportTile c.tile.station c.tile.number (cardReport .failed c) (endWrites t))) (if_congr howner rfl rfl)

theorem finishWrite_eq (c : CurrentCard) (s : State) {t : State}
    (h : reportTile c.tile.station c.tile.number (cardReport .tiled c)
      (modMover (fun m => { m with phase := .idle, current := none })
        (landRuns (writingRuns c) ((c.tile.bytes.take c.capacity).length + 11) s)) = t) :
    finishWrite c s = if t.device = .failed then t else afterWrite c t := by
  rw [← h, ← runsLength_writingRuns]
  rfl

/-! ## What stands in host memory after the writes (R140, R141) -/

/-- Two offsets of a card name different bytes. -/
theorem outside_card_field (a : Addr) {i j k n : Nat} (hi : i + k < 2 ^ 64) (hj : j + n ≤ 2 ^ 64)
    (h : ∀ l, l < n → i + k ≠ j + l) : outside (offsetAddr (offsetAddr a i) k).toNat (offsetAddr a j) n := by
  rw [offsetAddr_offsetAddr]
  exact outside_offsetAddr a hi hj h

theorem outside_owner (a : Addr) {i k : Nat} (hi : i + k < 2 ^ 64) (hpos : 0 < i) :
    outside (offsetAddr (offsetAddr a i) k).toNat a 1 := by
  have h := outside_card_field a (i := i) (j := 0) (k := k) (n := 1) hi (by omega) fun l hl => by omega
  rwa [offsetAddr_zero] at h

/-- A write of a card whose bytes no later write reaches. -/
theorem writingRuns_on_card {c : CurrentCard} {s : State} (hwf : Memory.wf s.mem = true)
    (hlen : c.tile.bytes.length ≤ 2 ^ 64) {r : Addr × List Byte} {before after : List (Addr × List Byte)}
    (hruns : writingRuns c = before ++ r :: after)
    (hafter : ∀ i, i < r.2.length → ∀ q ∈ after, outside (offsetAddr r.1 i).toNat q.1 q.2.length) :
    busRead r.1 r.2.length (landRuns (writingRuns c) ((c.tile.bytes.take c.capacity).length + 11) s) = r.2 := by
  refine busRead_landRuns hwf (fun q hq => ?_) (runsLength_writingRuns c).le hruns hafter
  have hkept : (c.tile.bytes.take c.capacity).length ≤ 2 ^ 64 := (List.length_take_le' _ _).trans hlen
  rw [writingRuns_eq] at hq
  simp only [List.mem_cons, List.not_mem_nil, or_false] at hq
  rcases hq with rfl | rfl | rfl | rfl
  · exact hkept
  all_goals simp [length_le]

/-- Settles O51: the end of each phase's writes by the pending head and the next field; a bus error by whether it met the
owner byte; the bytes in host memory by the writes that no later one reaches. -/
theorem moverWrites : Obligations.MoverWrites := by
  refine ⟨?events, fun c s => ⟨fun head h => afterWrite_of_head h, afterWrite_of_chain⟩, ?written, ?marked,
    fun r rest s => ⟨rfl, rfl⟩,
    fun a bytes n s hwf hlen hn hok hbad => busWrite_spec hwf hlen hn hok hbad⟩
  case events =>
    intro m s b held idle hlive
    refine ⟨fun c hphase hmarked => ?_, fun c hphase hcurrent => ?_, fun hphase landed => exec_writes_of_idle hlive hphase landed⟩
    · intro runs done free
      have hmarking := exec_markingCompletion_of_marking hlive hphase hmarked
      have hhead : free.mover.pendingHead = b.mover.pendingHead := markingDone_pendingHead c b
      refine ⟨fun head h => hmarking.trans ?_, fun h hnext => hmarking.trans ?_, fun h hnext => hmarking.trans ?_,
        fun landed => (exec_writeBusError_of_marking hlive hphase hmarked landed).trans ?_⟩
      · exact congrArg (fun s => Host.Outcome.next (conclude s)) (afterMarking_of_head (s := free) (hhead.trans h))
      · exact congrArg (fun s => Host.Outcome.next (conclude s)) (afterMarking_of_next (s := free) (hhead.trans h) hnext)
      · exact congrArg (fun s => Host.Outcome.next (conclude s)) (afterMarking_of_end (s := free) (hhead.trans h) hnext)
      · rw [failMarking_eq]
        exact congrArg (fun s => Host.Outcome.next (conclude s)) (holdFailedCard_eq none c.address _)
    · intro cut kept report runs done free
      have hruns : runs = writingRuns c := by
        rw [writingRuns_eq]
        simp [runs, cut, kept]
      have hfree : reportTile c.tile.station c.tile.number (cardReport .tiled c)
          (modMover (fun m => { m with phase := .idle, current := none })
            (landRuns (writingRuns c) (kept.length + 11) b)) = free := by
        rw [← hruns]
        rfl
      refine ⟨?_, ?_, fun landed => ?_⟩
      · rw [hruns]
        exact runsLength_writingRuns c
      · rw [exec_writeCompletion_of_writing hlive hphase hcurrent, finishWrite_eq c b hfree]
      · refine (exec_writeBusError_of_writing hlive hphase hcurrent landed).trans ?_
        rw [failWriting_eq, ← hruns]
        exact congrArg (fun s => Host.Outcome.next (conclude s)) (holdFailedCard_eq (some c.tile) c.address _)
  case written =>
    intro c s hwf hlen cut kept fields status
    have hruns : writingRuns c = [(c.buffer, kept), (offsetAddr c.address 2, status), (offsetAddr c.address 24, fields),
        (c.address, [0])] := by
      rw [writingRuns_eq]
      simp [kept, cut, status, fields]
    rw [← hruns]
    intro t
    have hbytes := fun before r after => writingRuns_on_card (s := s) (before := before) (r := r) (after := after) hwf hlen
    have hfields : fields.length = 8 := by simp [fields, length_le]
    refine ⟨?_, ?_, ?_, fun hbuffer => ?_⟩
    · refine hbytes [(c.buffer, kept), (offsetAddr c.address 2, status), (offsetAddr c.address 24, fields)]
        (c.address, [0]) [] hruns fun i _ q hq => absurd hq List.not_mem_nil
    · refine hbytes [(c.buffer, kept)] (offsetAddr c.address 2, status) [(offsetAddr c.address 24, fields), (c.address, [0])]
        hruns fun i hi q hq => ?_
      have hi2 : i < 2 := hi
      simp only [List.mem_cons, List.not_mem_nil, or_false] at hq
      rcases hq with rfl | rfl
      · exact outside_card_field c.address (by omega) (by rw [hfields]; omega) fun l hl => by omega
      · exact outside_owner c.address (by omega) (by omega)
    · have h := hbytes [(c.buffer, kept), (offsetAddr c.address 2, status)] (offsetAddr c.address 24, fields)
        [(c.address, [0])] hruns fun i hi q hq => ?_
      · rwa [hfields] at h
      · rw [hfields] at hi
        rw [List.mem_singleton.1 hq]
        exact outside_owner c.address (by omega) (by omega)
    · refine hbytes [] (c.buffer, kept) [(offsetAddr c.address 2, status), (offsetAddr c.address 24, fields),
        (c.address, [0])] hruns fun i hi q hq => ?_
      simp only [List.mem_cons, List.not_mem_nil, or_false] at hq
      rcases hq with rfl | rfl | rfl
      · exact outside_of_subset (hbuffer i hi) (i := 2) (n := 2) (by omega)
      · exact outside_of_subset (hbuffer i hi) (i := 24) (by rw [hfields])
      · have h := outside_of_subset (hbuffer i hi) (i := 0) (n := 1) (by omega)
        rwa [offsetAddr_zero] at h
  case marked =>
    intro a s hwf t
    have hlen : ∀ q ∈ [(offsetAddr a 2, [3]), (a, [(0 : Byte)])], q.2.length ≤ 2 ^ 64 := by simp
    refine ⟨busRead_landRuns (r := (a, [0])) (before := [(offsetAddr a 2, [3])]) (after := []) hwf hlen (le_refl 2) rfl
      fun i _ q hq => absurd hq List.not_mem_nil, ?_⟩
    refine busRead_landRuns (r := (offsetAddr a 2, [3])) (before := []) (after := [(a, [0])]) hwf hlen (le_refl 2) rfl
      fun i hi q hq => ?_
    have hi1 : i < 1 := hi
    rw [List.mem_singleton.1 hq]
    exact outside_owner a (by omega) (by omega)

end Sys2Proof.Machine
end

section
/-! PROOFS. The finish of an order (09, R178, R180, R182, R197). -/

namespace Sys2Proof.Machine

open Sys2Proof

/-! ## One write of a finish -/

/-- A bus write that meets its first error, if any, after `n` bytes, with what it leaves of host memory. -/
theorem busWrite_step {a : Addr} {bytes : List Byte} {n : Nat} {s : State} (hwf : Memory.wf s.mem = true)
    (hlen : bytes.length ≤ 2 ^ 64) (hn : n ≤ bytes.length) (hok : ∀ i, i < n → (offsetAddr a i).toNat ∉ s.writeErrors)
    (hbad : n < bytes.length → (offsetAddr a n).toNat ∈ s.writeErrors) :
    ∃ mem, Memory.wf mem = true ∧
      busWrite a bytes s =
        ({ s with mem := mem, outputs := s.outputs ++ [.hostWrite a (bytes.take n)] }, n == bytes.length) ∧
      (∀ i, i < n → Memory.read mem (offsetAddr a i).toNat = bytes.getD i 0) ∧
      ∀ x, outside x a n → Memory.read mem x = Memory.read s.mem x := by
  obtain ⟨hlanded, hreads, hothers⟩ := Memory.writeUntilError_spec s.writeErrors bytes n s.mem a hwf hlen hn hok hbad
  refine ⟨(Memory.writeUntilError s.writeErrors s.mem a bytes).1, Memory.wf_writeUntilError _ _ _ hwf, ?_, hreads, hothers⟩
  rw [busWrite, hlanded]
  rfl

/-- A bus write refused at its first byte changes nothing but the outputs. -/
theorem busWrite_of_refused {a : Addr} {b : Byte} {bs : List Byte} {s : State} (h : a.toNat ∈ s.writeErrors) :
    busWrite a (b :: bs) s = ({ s with outputs := s.outputs ++ [.hostWrite a []] }, false) := by
  rw [busWrite, writeUntilError_of_first h]
  rfl

/-- One byte written to an address that answers without an error. -/
theorem busWrite_byte {a : Addr} {b : Byte} {s : State} (hwf : Memory.wf s.mem = true) (hok : a.toNat ∉ s.writeErrors) :
    ∃ mem, Memory.wf mem = true ∧
      busWrite a [b] s = ({ s with mem := mem, outputs := s.outputs ++ [.hostWrite a [b]] }, true) ∧
      Memory.read mem a.toNat = b ∧ ∀ x, x ≠ a.toNat → Memory.read mem x = Memory.read s.mem x := by
  obtain ⟨mem, hmem, hwrite, hreads, hothers⟩ := busWrite_step (a := a) (bytes := [b]) (n := 1) hwf (by simp) le_rfl
    (fun i hi => by rw [Nat.lt_one_iff.1 hi, offsetAddr_zero]; exact hok) fun h => absurd h (lt_irrefl _)
  refine ⟨mem, hmem, hwrite, ?_, fun x hx => hothers x fun i hi => ?_⟩
  · have h := hreads 0 Nat.one_pos
    rwa [offsetAddr_zero] at h
  · rw [Nat.lt_one_iff.1 hi, offsetAddr_zero]
    exact hx

/-! ## The causes and latches of a finish -/

theorem latchFailed_orders (s : State) : (latchFailed s).latches.orders = s.latches.orders := by
  obtain ⟨outputs, h⟩ := withIrq_frame (f := fun s => { s with latches := { s.latches with failed := true } }) (s := s)
  exact congrArg (fun s => s.latches.orders) h

theorem stopCardWrite_latches (whole : Bool) (s : State) : (stopCardWrite whole s).latches = s.latches := by
  rw [stopCardWrite_frame]

theorem enterFailed_orders (reason : FailReason) (s : State) :
    (enterFailed reason s).latches.orders = s.latches.orders := by
  unfold enterFailed
  split
  · rfl
  · change (stopCardWrite true _).latches.orders = _
    rw [stopCardWrite_latches]
    exact latchFailed_orders _

theorem exchangeRead_orders (offset : Nat) {s : State} (hlive : s.device ≠ .failed) :
    (exchangeRead offset s).latches.orders = s.latches.orders := by
  rw [exchangeRead, raise_of_fatal hlive rfl]
  exact enterFailed_orders _ s

/-! ## The writes of a finish -/

/-- The state byte of a finished slot. -/
def endByte (res : OrderResult) : Byte := if res.done then 3 else 4

section
variable {slot : SlotId} {res : OrderResult} {s : State}

theorem writeFinish_of_failed (h : s.device = .failed) : writeFinish slot res s = s := if_pos h

variable (hlive : s.device ≠ .failed)
include hlive

/-- The three writes of a finish, each made where the one before it has landed. -/
theorem writeFinish_of_live : writeFinish slot res s =
    if (busWrite (offsetAddr (slotAddr slot s) 2) [byteOf res.reason.code] s).2 = true then
      if (busWrite (offsetAddr (slotAddr slot s) 32) (padTo 32 res.bytes)
          (busWrite (offsetAddr (slotAddr slot s) 2) [byteOf res.reason.code] s).1).2 = true then
        if (busWrite (slotAddr slot s) [endByte res] (busWrite (offsetAddr (slotAddr slot s) 32) (padTo 32 res.bytes)
            (busWrite (offsetAddr (slotAddr slot s) 2) [byteOf res.reason.code] s).1).1).2 = true then
          latchOrders (busWrite (slotAddr slot s) [endByte res] (busWrite (offsetAddr (slotAddr slot s) 32)
            (padTo 32 res.bytes) (busWrite (offsetAddr (slotAddr slot s) 2) [byteOf res.reason.code] s).1).1).1
        else exchangeRead (0x400 + 64 * slot.val) (busWrite (slotAddr slot s) [endByte res]
          (busWrite (offsetAddr (slotAddr slot s) 32) (padTo 32 res.bytes)
            (busWrite (offsetAddr (slotAddr slot s) 2) [byteOf res.reason.code] s).1).1).1
      else exchangeRead (0x400 + 64 * slot.val) (busWrite (offsetAddr (slotAddr slot s) 32) (padTo 32 res.bytes)
        (busWrite (offsetAddr (slotAddr slot s) 2) [byteOf res.reason.code] s).1).1
    else exchangeRead (0x400 + 64 * slot.val) (busWrite (offsetAddr (slotAddr slot s) 2) [byteOf res.reason.code] s).1 :=
  if_neg hlive

theorem writeFinish_of_reason_error {t : State}
    (h : busWrite (offsetAddr (slotAddr slot s) 2) [byteOf res.reason.code] s = (t, false)) :
    writeFinish slot res s = exchangeRead (0x400 + 64 * slot.val) t := by
  rw [writeFinish_of_live hlive, h]
  exact if_neg Bool.false_ne_true

variable {t : State} (hreason : busWrite (offsetAddr (slotAddr slot s) 2) [byteOf res.reason.code] s = (t, true))
include hreason

theorem writeFinish_of_bytes_error {u : State}
    (h : busWrite (offsetAddr (slotAddr slot s) 32) (padTo 32 res.bytes) t = (u, false)) :
    writeFinish slot res s = exchangeRead (0x400 + 64 * slot.val) u := by
  rw [writeFinish_of_live hlive, hreason, if_pos rfl, h]
  exact if_neg Bool.false_ne_true

variable {u : State} (hbytes : busWrite (offsetAddr (slotAddr slot s) 32) (padTo 32 res.bytes) t = (u, true))
include hbytes

theorem writeFinish_of_state_error {v : State} (h : busWrite (slotAddr slot s) [endByte res] u = (v, false)) :
    writeFinish slot res s = exchangeRead (0x400 + 64 * slot.val) v := by
  rw [writeFinish_of_live hlive, hreason, if_pos rfl, hbytes, if_pos rfl, h]
  exact if_neg Bool.false_ne_true

theorem writeFinish_of_written {v : State} (h : busWrite (slotAddr slot s) [endByte res] u = (v, true)) :
    writeFinish slot res s = latchOrders v := by
  rw [writeFinish_of_live hlive, hreason, if_pos rfl, hbytes, if_pos rfl, h]
  exact if_pos rfl

end

/-! ## The finish by where it meets its first bus error -/

section
variable {slot : SlotId} {res : OrderResult} {s : State} (hwf : Memory.wf s.mem = true) (hlen : res.bytes.length ≤ 32)
include hwf hlen

/-- Reason and result bytes written up to the first error among the result bytes. -/
theorem busWrite_result {n : Nat} (hreason : (offsetAddr (slotAddr slot s) 2).toNat ∉ s.writeErrors) (hn : n ≤ 32)
    (hok : ∀ i, i < n → (offsetAddr (slotAddr slot s) (32 + i)).toNat ∉ s.writeErrors)
    (hbad : n < 32 → (offsetAddr (slotAddr slot s) (32 + n)).toNat ∈ s.writeErrors) :
    ∃ t u, busWrite (offsetAddr (slotAddr slot s) 2) [byteOf res.reason.code] s = (t, true) ∧
      busWrite (offsetAddr (slotAddr slot s) 32) (padTo 32 res.bytes) t = (u, n == 32) ∧
      Memory.wf u.mem = true ∧
      u = { s with mem := u.mem, outputs := s.outputs ++
        [.hostWrite (offsetAddr (slotAddr slot s) 2) [byteOf res.reason.code],
         .hostWrite (offsetAddr (slotAddr slot s) 32) ((padTo 32 res.bytes).take n)] } ∧
      Memory.read u.mem (offsetAddr (slotAddr slot s) 2).toNat = byteOf res.reason.code ∧
      (∀ i, i < n → Memory.read u.mem (offsetAddr (offsetAddr (slotAddr slot s) 32) i).toNat =
        (padTo 32 res.bytes).getD i 0) ∧
      ∀ x, x ≠ (offsetAddr (slotAddr slot s) 2).toNat → outside x (offsetAddr (slotAddr slot s) 32) n →
        Memory.read u.mem x = Memory.read s.mem x := by
  have hlength : (padTo 32 res.bytes).length = 32 := length_padTo hlen
  obtain ⟨mem, hmem, hwrite, hread, hothers⟩ := busWrite_byte (b := byteOf res.reason.code) hwf hreason
  obtain ⟨mem', hmem', hwrite', hreads', hothers'⟩ := busWrite_step (a := offsetAddr (slotAddr slot s) 32)
    (bytes := padTo 32 res.bytes) (n := n)
    (s := { s with mem := mem, outputs := s.outputs ++
      [.hostWrite (offsetAddr (slotAddr slot s) 2) [byteOf res.reason.code]] }) hmem (by omega) (by omega)
    (fun i hi => by rw [offsetAddr_offsetAddr]; exact hok i hi)
    fun h => by rw [offsetAddr_offsetAddr]; exact hbad (hlength ▸ h)
  rw [hlength] at hwrite'
  refine ⟨_, _, hwrite, hwrite', hmem', ?_, ?_, hreads', fun x hx hout => (hothers' x hout).trans (hothers x hx)⟩
  · simp
  · refine (hothers' _ ?_).trans hread
    exact outside_offsetAddr _ (by omega) (by omega) fun k _ => by omega

end

theorem busRead_take {a : Addr} {bytes : List Byte} {n : Nat} {t : State} (hn : n ≤ bytes.length)
    (h : ∀ i, i < n → Memory.read t.mem (offsetAddr a i).toNat = bytes.getD i 0) : busRead a n t = bytes.take n := by
  have hlength : (bytes.take n).length = n := by rw [List.length_take]; omega
  have hread := busRead_of_reads (a := a) (bytes := bytes.take n) (t := t) fun i hi => by
    rw [hlength] at hi
    refine (h i hi).trans ?_
    simp only [List.getD_eq_getElem?_getD, List.getElem?_take_of_lt hi]
  rwa [hlength] at hread

theorem finishParked_of_none_waiting {w : ParkedFor} {res : OrderResult} {s : State}
    (h : s.engine.parked.filter (fun p => p.waits == w) = []) : finishParked w res s = s := by
  rw [finishParked, h]
  rfl

/-- A finish that a bus error stops: the state at the error, and the FATAL cause raised there (R180, R182). -/
def StoppedFinish (slot : SlotId) (res : OrderResult) (s : State) (outputs : List Output) (reads : State → Prop) : Prop :=
  ∃ t : State, t = { s with mem := t.mem, outputs := s.outputs ++ outputs } ∧ reads t ∧
    writeFinish slot res s = exchangeRead (0x400 + 64 * slot.val) t ∧ (writeFinish slot res s).device = .failed ∧
    (writeFinish slot res s).failReason = .fatalCause ∧
    (writeFinish slot res s).latches.orders = s.latches.orders

theorem stoppedFinish_of_exchangeRead {slot : SlotId} {res : OrderResult} {s t : State} {outputs : List Output}
    {reads : State → Prop} (hlive : s.device ≠ .failed)
    (ht : t = { s with mem := t.mem, outputs := s.outputs ++ outputs }) (hreads : reads t)
    (hfinish : writeFinish slot res s = exchangeRead (0x400 + 64 * slot.val) t) :
    StoppedFinish slot res s outputs reads := by
  have hdevice : t.device ≠ .failed := fun h => hlive ((congrArg State.device ht).symm.trans h)
  have horders : t.latches.orders = s.latches.orders := congrArg (fun s => s.latches.orders) ht
  obtain ⟨hfailed, hreason⟩ := fatallyFailed_exchangeRead (0x400 + 64 * slot.val) hdevice
  refine ⟨t, ht, hreads, hfinish, ?_, ?_, ?_⟩
  · rw [hfinish]; exact hfailed
  · rw [hfinish]; exact hreason
  · rw [hfinish]; exact (exchangeRead_orders _ hdevice).trans horders

section
variable {slot : SlotId} {res : OrderResult} {s : State} (hwf : Memory.wf s.mem = true) (hlen : res.bytes.length ≤ 32)
  (hlive : s.device ≠ .failed)

theorem stoppedFinish_at_reason (hlive : s.device ≠ .failed)
    (hbad : (offsetAddr (slotAddr slot s) 2).toNat ∈ s.writeErrors) :
    StoppedFinish slot res s [.hostWrite (offsetAddr (slotAddr slot s) 2) []] fun t => t.mem = s.mem :=
  stoppedFinish_of_exchangeRead
    (t := { s with outputs := s.outputs ++ [.hostWrite (offsetAddr (slotAddr slot s) 2) []] }) hlive rfl rfl
    (writeFinish_of_reason_error hlive (busWrite_of_refused hbad))

include hwf hlen hlive

theorem stoppedFinish_at_result {n : Nat} (hok2 : (offsetAddr (slotAddr slot s) 2).toNat ∉ s.writeErrors) (hn : n < 32)
    (hok : ∀ i, i < n → (offsetAddr (slotAddr slot s) (32 + i)).toNat ∉ s.writeErrors)
    (hbad : (offsetAddr (slotAddr slot s) (32 + n)).toNat ∈ s.writeErrors) :
    StoppedFinish slot res s
      [.hostWrite (offsetAddr (slotAddr slot s) 2) [byteOf res.reason.code],
       .hostWrite (offsetAddr (slotAddr slot s) 32) ((padTo 32 res.bytes).take n)] fun t =>
      busRead (offsetAddr (slotAddr slot s) 2) 1 t = [byteOf res.reason.code] ∧
      busRead (offsetAddr (slotAddr slot s) 32) n t = (padTo 32 res.bytes).take n ∧
      ∀ x, x ≠ (offsetAddr (slotAddr slot s) 2).toNat → outside x (offsetAddr (slotAddr slot s) 32) n →
        Memory.read t.mem x = Memory.read s.mem x := by
  obtain ⟨t, u, hreason, hbytes, hmem, hu, hread, hreads, hothers⟩ :=
    busWrite_result hwf hlen (n := n) hok2 hn.le hok fun _ => hbad
  rw [beq_false_of_ne hn.ne] at hbytes
  refine stoppedFinish_of_exchangeRead hlive hu ⟨?_, ?_, hothers⟩ (writeFinish_of_bytes_error hlive hreason hbytes)
  · rw [busRead_one, hread]
  · exact busRead_take ((length_padTo hlen).symm ▸ hn.le) hreads

theorem stoppedFinish_at_state (hok2 : (offsetAddr (slotAddr slot s) 2).toNat ∉ s.writeErrors)
    (hok : ∀ i, i < 32 → (offsetAddr (slotAddr slot s) (32 + i)).toNat ∉ s.writeErrors)
    (hbad : (slotAddr slot s).toNat ∈ s.writeErrors) :
    StoppedFinish slot res s
      [.hostWrite (offsetAddr (slotAddr slot s) 2) [byteOf res.reason.code],
       .hostWrite (offsetAddr (slotAddr slot s) 32) (padTo 32 res.bytes), .hostWrite (slotAddr slot s) []] fun t =>
      busRead (offsetAddr (slotAddr slot s) 2) 1 t = [byteOf res.reason.code] ∧
      busRead (offsetAddr (slotAddr slot s) 32) 32 t = padTo 32 res.bytes ∧
      ∀ x, x ≠ (offsetAddr (slotAddr slot s) 2).toNat → outside x (offsetAddr (slotAddr slot s) 32) 32 →
        Memory.read t.mem x = Memory.read s.mem x := by
  obtain ⟨t, u, hreason, hbytes, hmem, hu, hread, hreads, hothers⟩ :=
    busWrite_result hwf hlen (n := 32) hok2 le_rfl hok fun h => absurd h (lt_irrefl _)
  have hwhole : (padTo 32 res.bytes).take 32 = padTo 32 res.bytes := List.take_of_length_le (length_padTo hlen).le
  have huerrors : (slotAddr slot s).toNat ∈ u.writeErrors := (congrArg State.writeErrors hu).symm ▸ hbad
  refine stoppedFinish_of_exchangeRead (t := { u with outputs := u.outputs ++ [.hostWrite (slotAddr slot s) []] }) hlive ?_
    ⟨?_, ?_, hothers⟩ (writeFinish_of_state_error hlive hreason hbytes (busWrite_of_refused huerrors))
  · rw [hwhole] at hu
    rw [hu, List.append_assoc]
    rfl
  · rw [busRead_one]
    exact congrArg (fun b => [b]) hread
  · rw [← hwhole]
    exact busRead_take (length_padTo hlen).ge hreads

/-- A finish without a bus error (R182, R195). -/
theorem writeFinish_of_no_errors (herrors : s.writeErrors = []) :
    ∃ mem, writeFinish slot res s = latchOrders { s with mem := mem, outputs := s.outputs ++
        [.hostWrite (offsetAddr (slotAddr slot s) 2) [byteOf res.reason.code],
         .hostWrite (offsetAddr (slotAddr slot s) 32) (padTo 32 res.bytes),
         .hostWrite (slotAddr slot s) [endByte res]] } ∧
      Memory.read mem (slotAddr slot s).toNat = endByte res ∧
      Memory.read mem (offsetAddr (slotAddr slot s) 2).toNat = byteOf res.reason.code ∧
      (∀ i, i < 32 → Memory.read mem (offsetAddr (offsetAddr (slotAddr slot s) 32) i).toNat =
        (padTo 32 res.bytes).getD i 0) ∧
      ∀ x, x ≠ (slotAddr slot s).toNat → x ≠ (offsetAddr (slotAddr slot s) 2).toNat →
        outside x (offsetAddr (slotAddr slot s) 32) 32 → Memory.read mem x = Memory.read s.mem x := by
  have hok : ∀ x : Nat, x ∉ s.writeErrors := fun x => by rw [herrors]; exact List.not_mem_nil
  obtain ⟨t, u, hreason, hbytes, hmem, hu, hread, hreads, hothers⟩ := busWrite_result hwf hlen (n := 32) (hok _)
    le_rfl (fun i _ => hok _) fun h => absurd h (lt_irrefl _)
  have hwhole : (padTo 32 res.bytes).take 32 = padTo 32 res.bytes := List.take_of_length_le (length_padTo hlen).le
  have huerrors : (slotAddr slot s).toNat ∉ u.writeErrors := (congrArg State.writeErrors hu).symm ▸ hok _
  obtain ⟨mem, hmem', hwrite, hstate, hothers'⟩ := busWrite_byte (b := endByte res) hmem huerrors
  have hfield : ∀ i, 0 < i → i < 64 → (offsetAddr (slotAddr slot s) i).toNat ≠ (slotAddr slot s).toNat := fun i hpos hi h => by
    have h0 := offsetAddr_inj (slotAddr slot s) (i := i) (j := 0) (by omega) (by omega) (by rw [offsetAddr_zero]; exact h)
    omega
  refine ⟨mem, (writeFinish_of_written hlive hreason hbytes hwrite).trans (congrArg latchOrders ?_), hstate, ?_, fun i hi => ?_,
    fun x hx hx2 hout => (hothers' x hx).trans (hothers x hx2 hout)⟩
  · rw [hwhole] at hu
    rw [hu, List.append_assoc]
    rfl
  · rw [hothers' _ (hfield 2 (by omega) (by omega)), hread]
  · rw [← hreads i hi, offsetAddr_offsetAddr]
    exact hothers' _ (hfield (32 + i) (by omega) (by omega))

end

/-- Settles O52: the three writes one after the other, by where the first bus error among them stands. -/
theorem orderFinish : Obligations.OrderFinish := by
  refine ⟨fun _ _ => rfl, fun slot res s hwf hlive herrors hlen => ?written, fun slot res s hwf hlen => ?errors,
    fun _ _ => ⟨rfl, rfl⟩, fun w res s => ⟨finishParked_of_none_waiting, fun p => finishParked_of_one⟩, fun _ _ => rfl,
    by decide⟩
  case written =>
    obtain ⟨mem, hfinish, hstate, hreason, hreads, hothers⟩ := writeFinish_of_no_errors (slot := slot) hwf hlen hlive herrors
    intro a t
    have hmemory : t.mem = mem := (congrArg State.mem hfinish).trans (latchOrders_mem _)
    have hlength : (padTo 32 res.bytes).length = 32 := length_padTo hlen
    rw [hmemory, busRead_one, busRead_one, hmemory, hstate, hreason]
    refine ⟨hfinish, rfl, rfl, ?_, hothers⟩
    have hres := busRead_take (a := offsetAddr a 32) (bytes := padTo 32 res.bytes) (t := t) hlength.ge fun i hi => by
      rw [hmemory]
      exact hreads i hi
    rwa [List.take_of_length_le hlength.le] at hres
  case errors =>
    exact ⟨writeFinish_of_failed, fun hlive hbad => stoppedFinish_at_reason hlive hbad,
      fun n hlive hok2 hn hok hbad => stoppedFinish_at_result hwf hlen hlive hok2 hn hok hbad,
      fun hlive hok2 hok hbad => stoppedFinish_at_state hwf hlen hlive hok2 hok (by
        rw [← offsetAddr_zero (slotAddr slot s)]
        exact hbad)⟩

end Sys2Proof.Machine
end

section
/-! PROOFS. Where an order is not taken or not accepted (09, R180, R181, R186, R194). -/

namespace Sys2Proof.Machine

open Sys2Proof

/-! ## The rows of the orders (log 6) -/

theorem exec_of_orderIn {c : Instr} {slot : SlotId} {o : Order} (h : orderIn c = some (slot, o)) (s : State) :
    exec c s = orderCommand (momentOf c) slot o s := by
  unfold orderIn at h
  split at h <;> cases h <;> rfl

section
variable {m : Moment} {slot : SlotId} {o : Order} {s : State} (hlive : (taken m s).device ≠ .failed)
include hlive

theorem orderCommand_of_blocked (h : (taken m s).base = 0 ∨ (taken m s).engine.executing ≠ none ∨
    holdsSlot slot (taken m s) = true) : orderCommand m slot o s = .next (conclude (taken m s)) :=
  event_of_effect hlive (if_pos (h.imp id (Or.imp Option.isSome_iff_ne_none.2 id)))

theorem orderCommand_of_takeable (hbase : (taken m s).base ≠ 0) (hexecuting : (taken m s).engine.executing = none)
    (hheld : holdsSlot slot (taken m s) = false) : orderCommand m slot o s =
      .next (conclude (endScan (takeOrder slot o
        { taken m s with engine := { (taken m s).engine with scan := some slot } }))) := by
  refine event_of_effect hlive (if_neg ?_)
  rintro (h | h | h)
  · exact hbase h
  · rw [hexecuting] at h; exact Bool.noConfusion h
  · rw [hheld] at h; exact Bool.noConfusion h

end

/-! ## The take of a slot (R180, R181) -/

section
variable {slot : SlotId} {s : State}

theorem busWrite_taken_iff : (busWrite (slotAddr slot s) [stateTaken] s).2 = true ↔
    (slotAddr slot s).toNat ∉ s.writeErrors := by
  rw [busWrite_whole_iff]
  refine ⟨fun h => ?_, fun h i hi => ?_⟩
  · have h0 := h 0 Nat.one_pos
    rwa [offsetAddr_zero] at h0
  · rw [Nat.lt_one_iff.1 hi, offsetAddr_zero]
    exact h

theorem takeOrder_of_error (h : (slotAddr slot s).toNat ∈ s.writeErrors) (o : Order) :
    takeOrder slot o s = exchangeRead (0x400 + 64 * slot.val) (busWrite (slotAddr slot s) [2] s).1 :=
  if_neg fun hw => busWrite_taken_iff.1 hw h

theorem takeOrder_of_writable (h : (slotAddr slot s).toNat ∉ s.writeErrors) {o : Order} {t : State}
    (ht : runOrder slot o (busWrite (slotAddr slot s) [2] s).1 = t) :
    takeOrder slot o s = if t.device = .failed then t else settle t := by
  rw [← ht]
  exact if_pos (busWrite_taken_iff.2 h)

end

theorem fatallyFailed_endScan {s : State} (h : FatallyFailed s) : FatallyFailed (endScan s) := by
  rw [endScan_of_stopped (.inl h.1)]
  exact h

/-- The device state in which a CLOSE TRACK is accepted decides how one of an unknown mode is refused. -/
theorem runOrder_closeTrack_of_unknown {slot : SlotId} {track mode : Byte} {s : State} (h : 2 ≤ mode.toNat) :
    runOrder slot (.closeTrack track mode) s =
      writeFinish slot (.refused (if s.device = .watching then .badArgument else .wrongState) []) s := by
  by_cases hwatching : s.device = .watching
  · rw [if_pos hwatching, runOrder_closeTrack (by simp [acceptedIn, hwatching]), closeOrder]
    have hnow : mode ≠ CloseMode.now.byte := by rintro rfl; exact absurd h (by decide)
    have hafter : mode ≠ CloseMode.after.byte := by rintro rfl; exact absurd h (by decide)
    split
    · rfl
    · exact (if_neg hnow).trans (if_neg hafter)
  · rw [if_neg hwatching]
    exact runOrder_not_accepted (by simp [acceptedIn, hwatching])

theorem runOrder_setRest_of_unknown {slot : SlotId} {mask action : Byte} {s : State} (h : 2 ≤ action.toNat) :
    runOrder slot (.setRest mask action) s = writeFinish slot
      (.refused (if s.device = .ready ∨ s.device = .watching then .badArgument else .wrongState) []) s := by
  by_cases hstate : s.device = .ready ∨ s.device = .watching
  · rw [if_pos hstate, runOrder_setRest (by simpa [acceptedIn] using hstate), setRestOrder]
    have hrest : action ≠ 0 := by rintro rfl; exact absurd h (by decide)
    have hwake : action ≠ 1 := by rintro rfl; exact absurd h (by decide)
    by_cases hmask : mask = 0
    · exact if_pos hmask
    · exact (if_neg hmask).trans ((if_neg hrest).trans (if_neg hwake))
  · rw [if_neg hstate]
    exact runOrder_not_accepted (by simpa [acceptedIn] using hstate)

/-- Settles O53: an order row by whether its slot can be taken, then by whether the device state accepts the order; the
orders that no row carries by the branch of their judgement. -/
theorem ordersNotAccepted : Obligations.OrdersNotAccepted := by
  refine ⟨fun c slot o s hin => ?rows, fun slot s hlive => ?takes⟩
  case rows =>
    intro b accepted hlive
    rw [exec_of_orderIn hin]
    refine ⟨orderCommand_of_blocked hlive, fun hfree hnot => ?_, fun hbase hexecuting hheld herror => ?_,
      orderCommand_of_takeable hlive⟩
    · have hrefused : acceptedIn o (slotTaken slot b).device = false := by
        rw [slotTaken_device]
        cases o <;> simp_all [acceptedIn, accepted]
      rw [orderCommand_of_slotFree hfree, runOrder_not_accepted hrefused]
      rfl
    · have hfailed : FatallyFailed (takeOrder slot o { b with engine := { b.engine with scan := some slot } }) := by
        rw [takeOrder_of_error (s := { b with engine := { b.engine with scan := some slot } }) herror]
        exact fatallyFailed_exchangeRead _ hlive
      exact ⟨_, orderCommand_of_takeable hlive hbase hexecuting hheld,
        fatallyFailed_conclude (fatallyFailed_endScan hfailed)⟩
  case takes =>
    intro t refused
    refine ⟨takeOrder_of_error, fun hok => ⟨takeOrder_of_writable hok rfl, fun track mode hmode => ?_,
      fun mask action haction => ?_⟩⟩
    · exact takeOrder_of_writable hok (runOrder_closeTrack_of_unknown hmode)
    · exact takeOrder_of_writable hok (runOrder_setRest_of_unknown haction)

end Sys2Proof.Machine
end

section
/-! PROOFS. The orders that begin a read, and what a program table puts into the store (09, R68 to R70, R177, R183, R185,
R192). -/

namespace Sys2Proof.Machine

open Sys2Proof

/-! ## An order at a free slot -/

/-- An order row at a slot that can be taken, by what the order comes to. -/
theorem exec_of_runOrder {c : Instr} {slot : SlotId} {o : Order} {s t : State} (hin : orderIn c = some (slot, o))
    (hfree : slotFree slot (taken (momentOf c) s) = true)
    (h : runOrder slot o (slotTaken slot (taken (momentOf c) s)) = t) : exec c s = .next (orderEnded t) := by
  rw [exec_of_orderIn hin, orderCommand_of_slotFree hfree, h]

theorem loadable_accepts_plan {a : Addr} {slot : SlotId} {s : State} (h : s.device = .dormant ∨ s.device = .ready) :
    acceptedIn (.loadPlan a) (slotTaken slot s).device = true := by
  rw [slotTaken_device]
  rcases h with h | h <;> rw [h] <;> rfl

theorem loadable_accepts_programs {mask : BitVec 16} {a : Addr} {slot : SlotId} {s : State}
    (h : s.device = .dormant ∨ s.device = .ready) :
    acceptedIn (.loadPrograms mask a) (slotTaken slot s).device = true := loadable_accepts_plan (a := a) h

theorem live_of_slotFree {slot : SlotId} {s : State} (h : slotFree slot s = true) : (slotTaken slot s).device ≠ .failed :=
  (slotFree_iff.1 h).1

theorem within_iff {lo hi x : Nat} : within lo hi x = true ↔ lo ≤ x ∧ x ≤ hi := by simp [within]

/-! ## The steps of a program table (R70) -/

section
variable {table : List Byte} {o i : Nat}

theorem stepAt_of_unknown (h : leAt table (o + 0) 1 = 0 ∨ 6 < leAt table (o + 0) 1) :
    stepAt table o i = .error .unknownStep := by
  unfold stepAt
  dsimp only
  split
  case h_7 => rfl
  all_goals omega

theorem stepAt_of_expose (h : leAt table (o + 0) 1 = 1) : stepAt table o i =
    if (10 ≤ leAt table (o + 4) 2 ∧ leAt table (o + 4) 2 ≤ 2000 ∧ leAt table (o + 1) 1 ≤ 8 ∧
        leAt table (o + 6) 2 ≤ 2000 ∧ leAt table (o + 2) 1 < 64) ∧
        (leAt table (o + 1) 1 = 0 ∨ leAt table (o + 2) 1 ≠ 0) then
      .ok (.expose (leAt table (o + 4) 2) (leAt table (o + 1) 1) (BitVec.ofNat 6 (leAt table (o + 2) 1))
        (leAt table (o + 6) 2))
    else .error .outOfRange := by
  unfold stepAt
  dsimp only
  rw [h]
  refine if_congr ?_ rfl rfl
  simp only [Bool.and_eq_true, within_iff, Bool.or_eq_true, beq_iff_eq, Bool.not_eq_true', beq_eq_false_iff_ne]
  omega

theorem stepAt_of_pause_time (h : leAt table (o + 0) 1 = 2) (hform : leAt table (o + 1) 1 = 0) : stepAt table o i =
    if within 1 1000000 (leAt table (o + 4) 4) then .ok (.pause .time (leAt table (o + 4) 4)) else .error .outOfRange := by
  simp only [stepAt, h, hform]

theorem stepAt_of_pause_distance (h : leAt table (o + 0) 1 = 2) (hform : leAt table (o + 1) 1 = 1) : stepAt table o i =
    if within 1 60000 (leAt table (o + 4) 4) then .ok (.pause .distance (leAt table (o + 4) 4)) else .error .outOfRange := by
  simp only [stepAt, h, hform]

theorem stepAt_of_pause_other (h : leAt table (o + 0) 1 = 2) (hform : 1 < leAt table (o + 1) 1) :
    stepAt table o i = .error .outOfRange := by
  obtain ⟨form, hform⟩ : ∃ form, leAt table (o + 1) 1 = form + 2 := ⟨leAt table (o + 1) 1 - 2, by omega⟩
  simp only [stepAt, h, hform]

theorem stepAt_of_repeat (h : leAt table (o + 0) 1 = 3) : stepAt table o i =
    if leAt table (o + 1) 1 < i then
      if within 1 15 (leAt table (o + 2) 1) then
        .ok (.loop (Fin.ofNat 32 (leAt table (o + 1) 1)) (leAt table (o + 2) 1)) else .error .outOfRange
    else .error .badTarget := by
  unfold stepAt
  dsimp only
  rw [h]
  rfl

theorem stepAt_of_mark (h : leAt table (o + 0) 1 = 4) : stepAt table o i =
    if leAt table (o + 1) 1 = 0 then .error .outOfRange else .ok (.mark (BitVec.ofNat 8 (leAt table (o + 1) 1))) := by
  unfold stepAt
  dsimp only
  rw [h]
  rfl

theorem stepAt_of_await (h : leAt table (o + 0) 1 = 5) : stepAt table o i =
    if leAt table (o + 1) 1 = 0 then .error .outOfRange
    else if leAt table (o + 2) 2 = 0 then .error .outOfRange
    else .ok (.await (BitVec.ofNat 8 (leAt table (o + 1) 1)) (leAt table (o + 2) 2)) := by
  unfold stepAt
  dsimp only
  rw [h]
  rfl

theorem stepAt_of_finish (h : leAt table (o + 0) 1 = 6) : stepAt table o i = .ok .finish := by
  unfold stepAt
  dsimp only
  rw [h]
  rfl

end

theorem not_within {lo hi x : Nat} (h : x < lo ∨ hi < x) : ¬within lo hi x = true := fun hw => by
  have := within_iff.1 hw
  omega

/-! ## The programs of a table (R69, R70) -/

section
variable {table : List Byte} {p n i : Nat}

theorem stepsFrom_of_error {f : StepFailure} (h : stepAt table (256 * p + 8 * i) i = .error f) :
    stepsFrom table p (n + 1) i = .error (i, f) := by
  rw [stepsFrom, h]

theorem stepsFrom_of_finish (h : stepAt table (256 * p + 8 * i) i = .ok .finish) :
    stepsFrom table p (n + 1) i = .ok (List.replicate (n + 1) .finish) := by
  rw [stepsFrom, h]

theorem stepsFrom_of_step {x : Step} (h : stepAt table (256 * p + 8 * i) i = .ok x) (hx : x ≠ .finish) :
    stepsFrom table p (n + 1) i = match stepsFrom table p n (i + 1) with
      | .error e => .error e
      | .ok steps => .ok (x :: steps) := by
  rw [stepsFrom, h]
  cases x with
  | finish => exact absurd rfl hx
  | _ => rfl

end

section
variable {table : List Byte} {mask : BitVec 16} {p : ProgramId} {rest : List ProgramId}

theorem programsOf_of_unnamed (h : mask.getLsbD p.val = false) :
    programsOf table mask (p :: rest) = programsOf table mask rest := if_neg (Bool.eq_false_iff.1 h)

theorem programsOf_of_bad {i : Nat} {f : StepFailure} (h : mask.getLsbD p.val = true)
    (hsteps : stepsFrom table p.val 32 0 = .error (i, f)) :
    programsOf table mask (p :: rest) = .error (p.val, i, f) := by
  rw [programsOf, if_pos h, hsteps]

theorem programsOf_of_good {steps : List Step} (h : mask.getLsbD p.val = true)
    (hsteps : stepsFrom table p.val 32 0 = .ok steps) :
    programsOf table mask (p :: rest) = match programsOf table mask rest with
      | .error e => .error e
      | .ok programs => .ok ((p, programOfSteps steps) :: programs) := by
  rw [programsOf, if_pos h, hsteps] <;> rfl

end

/-! ## The store (R68, R69) -/

theorem loadAll_cons (x : ProgramId × Program) (rest : List (ProgramId × Program)) (s : State) :
    loadAll (x :: rest) s = loadAll rest { s with programs := s.programs.set x.1 (some x.2) } := rfl

theorem loadAll_frame : ∀ (programs : List (ProgramId × Program)) (s : State),
    loadAll programs s = { s with programs := (loadAll programs s).programs }
  | [], _ => rfl
  | x :: rest, s => loadAll_frame rest { s with programs := s.programs.set x.1 (some x.2) }

theorem loadAll_of_unnamed {p : ProgramId} : ∀ {programs : List (ProgramId × Program)} {s : State},
    (∀ x ∈ programs, x.1 ≠ p) → (loadAll programs s).programs[p] = s.programs[p]
  | [], _, _ => rfl
  | x :: rest, s, h => by
    obtain ⟨hx, hrest⟩ := List.forall_mem_cons.1 h
    rw [loadAll_cons, loadAll_of_unnamed hrest]
    exact Vector.getElem_set_ne x.1.isLt p.isLt fun heq => hx (Fin.ext heq)

theorem loadAll_of_named {x : ProgramId × Program} : ∀ {programs : List (ProgramId × Program)} {s : State},
    (programs.map Prod.fst).Nodup → x ∈ programs → (loadAll programs s).programs[x.1] = some x.2
  | [], _, _, hx => absurd hx List.not_mem_nil
  | y :: rest, s, hnodup, hx => by
    rw [List.map_cons, List.nodup_cons] at hnodup
    obtain ⟨hy, hrest⟩ := hnodup
    rw [loadAll_cons]
    rcases List.mem_cons.1 hx with rfl | hx
    · rw [loadAll_of_unnamed fun z hz heq => hy (List.mem_map.2 ⟨z, hz, heq⟩)]
      exact Vector.getElem_set_self x.1.isLt
    · exact loadAll_of_named hrest hx

/-- Settles O54: each order by its operands; each step by its kind and ranges; the programs by their first failing step. -/
theorem ordersThatRead : Obligations.OrdersThatRead := by
  refine ⟨?orders, ?steps, fun table p n i => ?program, fun table mask p rest => ?programs, fun steps i => ?store,
    fun programs s => ⟨loadAll_frame programs s, fun p h => loadAll_of_unnamed h, fun hnodup x hx => loadAll_of_named hnodup hx⟩⟩
  case orders =>
    intro m slot a s b t reads bad hfree
    refine ⟨fun hload => ⟨?_, ?_, fun mask hmask => ?_⟩, fun count => ⟨fun hlow hhigh => ?_, fun hbad => ?_⟩⟩
    · exact exec_of_runOrder rfl hfree (runOrder_loadPlan (loadable_accepts_plan hload))
    · exact exec_of_runOrder rfl hfree (runOrder_loadPrograms (loadable_accepts_programs hload))
    · exact exec_of_runOrder rfl hfree ((runOrder_loadPrograms (loadable_accepts_programs hload)).trans (if_neg hmask))
    · exact exec_of_runOrder rfl hfree ((runOrder_withdrawCards (bne_iff_ne.2 (live_of_slotFree hfree))).trans
        (if_pos (within_iff.2 ⟨hlow, hhigh⟩)))
    · refine exec_of_runOrder rfl hfree ((runOrder_withdrawCards (bne_iff_ne.2 (live_of_slotFree hfree))).trans
        (if_neg (not_within ?_)))
      rcases hbad with rfl | hbad
      · exact .inl Nat.one_pos
      · exact .inr hbad
  case steps =>
    intro table o i byte half amount ranges exposes step
    exact ⟨stepAt_of_unknown, fun h hr => (stepAt_of_expose h).trans (if_pos hr),
      fun h hr => (stepAt_of_expose h).trans (if_neg hr),
      fun h hf hl hu => (stepAt_of_pause_time h hf).trans (if_pos (within_iff.2 ⟨hl, hu⟩)),
      fun h hf hr => (stepAt_of_pause_time h hf).trans (if_neg (not_within (hr.imp Nat.lt_one_iff.2 id))),
      fun h hf hl hu => (stepAt_of_pause_distance h hf).trans (if_pos (within_iff.2 ⟨hl, hu⟩)),
      fun h hf hr => (stepAt_of_pause_distance h hf).trans (if_neg (not_within (hr.imp Nat.lt_one_iff.2 id))),
      stepAt_of_pause_other,
      fun h ht => (stepAt_of_repeat h).trans (if_neg (Nat.not_lt.2 ht)),
      fun h ht hc => (stepAt_of_repeat h).trans
        ((if_pos ht).trans (if_neg (not_within (hc.imp Nat.lt_one_iff.2 id)))),
      fun h ht hl hu => (stepAt_of_repeat h).trans ((if_pos ht).trans (if_pos (within_iff.2 ⟨hl, hu⟩))),
      fun h hz => (stepAt_of_mark h).trans (if_pos hz), fun h hz => (stepAt_of_mark h).trans (if_neg hz),
      fun h hz => (stepAt_of_await h).trans (hz.elim (fun hz => if_pos hz) fun hz => (ite_eq_left_iff.2 fun _ => if_pos hz)),
      fun h hz hw => (stepAt_of_await h).trans ((if_neg hz).trans (if_neg hw)), stepAt_of_finish⟩
  case program =>
    intro step
    refine ⟨rfl, fun f h => stepsFrom_of_error h, stepsFrom_of_finish, fun x h hx => ⟨fun e he => ?_, fun steps hs => ?_⟩⟩
    · rw [stepsFrom_of_step h hx, he]
    · rw [stepsFrom_of_step h hx, hs]
  case programs =>
    intro checked
    refine ⟨rfl, programsOf_of_unnamed, fun i f h hbad => programsOf_of_bad h hbad,
      fun steps h hgood => ⟨fun e he => ?_, fun programs hp => ?_⟩⟩
    · rw [programsOf_of_good h hgood, he]
    · rw [programsOf_of_good h hgood, hp]
  case store => simp [programOfSteps]

end Sys2Proof.Machine
end

section
/-! PROOFS. The orders about tracks and passages (09, R1, R2, R39, R40, R186 to R188). -/

namespace Sys2Proof.Machine

open Sys2Proof

theorem acceptedIn_of_device {o : Order} {d : DeviceState} {slot : SlotId} {s : State} (h : s.device = d)
    (ha : acceptedIn o d = true) : acceptedIn o (slotTaken slot s).device = true := by
  rw [slotTaken_device, h]
  exact ha

/-! ## OPEN TRACK and CLOSE TRACK by the state of the track (R1, R2, R186, R187) -/

theorem openOrder_of_no_track {slot : SlotId} {track : Byte} {s : State} (h : 4 ≤ track.toNat) :
    openOrder slot track s = writeFinish slot (.refused .badArgument []) s := by
  rw [openOrder, trackOfByte_large h]
  rfl

theorem closeOrder_of_no_track {slot : SlotId} {track mode : Byte} {s : State} (h : 4 ≤ track.toNat) :
    closeOrder slot track mode s = writeFinish slot (.refused .badArgument []) s := by
  rw [closeOrder, trackOfByte_large h]
  rfl

theorem beginOpen_of_settle {t : TrackId} {s : State} (h : s.tracks[t].plan.settleMs ≠ 0) : beginOpen t s =
    modTrack t (fun u => { u with
      state := .settling, settleTimer := some (plusUs s.gantryTime (u.plan.settleMs * 1000)) }) s := if_neg h

theorem beginOpen_of_no_settle {t : TrackId} {s : State} (h : s.tracks[t].plan.settleMs = 0) : beginOpen t s =
    modTrack t (fun u => { u.drop with
      state := .watching
      curtain := { Curtain.reset with silenceTimer := some (plusUs s.gantryTime 10000) } }) s := if_pos h

section
variable {slot : SlotId} {t : TrackId} {s : State}

/-- OPEN TRACK at a track of the part. -/
theorem openOrder_of_track : openOrder slot (BitVec.ofNat 8 t.val) s =
    if s.tracks[t].state ≠ .closed then refuse slot .already s
    else if s.tracks[t].plan.enabled = false then refuse slot .badArgument s
    else writeFinish slot (.ok []) (beginOpen t s) := by
  rw [openOrder, trackOfByte_ofNat]

theorem openOrder_of_open (h : s.tracks[t].state ≠ .closed) :
    openOrder slot (BitVec.ofNat 8 t.val) s = writeFinish slot (.refused .already []) s :=
  openOrder_of_track.trans (if_pos h)

section
variable (hclosed : s.tracks[t].state = .closed)
include hclosed

theorem openOrder_of_disabled (h : s.tracks[t].plan.enabled = false) :
    openOrder slot (BitVec.ofNat 8 t.val) s = writeFinish slot (.refused .badArgument []) s :=
  openOrder_of_track.trans ((if_neg (not_not.2 hclosed)).trans (if_pos h))

theorem openOrder_of_enabled (h : s.tracks[t].plan.enabled = true) :
    openOrder slot (BitVec.ofNat 8 t.val) s = writeFinish slot (.ok []) (beginOpen t s) :=
  openOrder_of_track.trans ((if_neg (not_not.2 hclosed)).trans (if_neg (Bool.ne_false_iff.2 h)))

variable (henabled : s.tracks[t].plan.enabled = true)
include henabled

theorem openOrder_of_settle (h : s.tracks[t].plan.settleMs ≠ 0) : openOrder slot (BitVec.ofNat 8 t.val) s =
    writeFinish slot (.ok []) (modTrack t (fun u => { u with
      state := .settling, settleTimer := some (plusUs s.gantryTime (u.plan.settleMs * 1000)) }) s) := by
  rw [openOrder_of_enabled hclosed henabled, beginOpen_of_settle h]

theorem openOrder_of_no_settle (h : s.tracks[t].plan.settleMs = 0) : openOrder slot (BitVec.ofNat 8 t.val) s =
    writeFinish slot (.ok []) (modTrack t (fun u => { u.drop with
      state := .watching
      curtain := { Curtain.reset with silenceTimer := some (plusUs s.gantryTime 10000) } }) s) := by
  rw [openOrder_of_enabled hclosed henabled, beginOpen_of_no_settle h]

end

theorem closeOrder_now : closeOrder slot (BitVec.ofNat 8 t.val) 0 s = closeNowOrder slot t s := by
  rw [closeOrder, trackOfByte_ofNat]
  rfl

theorem closeOrder_after : closeOrder slot (BitVec.ofNat 8 t.val) 1 s = closeAfterOrder slot t s := by
  rw [closeOrder, trackOfByte_ofNat]
  rfl

theorem closeNowOrder_of_closed (h : s.tracks[t].state = .closed) :
    closeNowOrder slot t s = writeFinish slot (.refused .already []) s := if_pos h

theorem closeNowOrder_of_open (h : s.tracks[t].state ≠ .closed) : closeNowOrder slot t s =
    writeFinish slot (.ok [0])
      (endTrackPassages t (finishParked (.track t) (.ok [0]) (modTrack t TrackUnit.drop s))) := if_neg h

theorem closeAfterOrder_of_closed (h : s.tracks[t].state = .closed ∨ s.tracks[t].state = .closing) :
    closeAfterOrder slot t s = writeFinish slot (.refused .already []) s := if_pos h

section
variable (hclosed : s.tracks[t].state ≠ .closed) (hclosing : s.tracks[t].state ≠ .closing)
include hclosed hclosing

theorem closeAfterOrder_of_free (h : ¬∃ j : ContextId, ∃ p, s.passages[j] = some p ∧ p.track = t) :
    closeAfterOrder slot t s = writeFinish slot (.ok [1])
      (finishParked (.track t) (.ok [1]) (modTrack t TrackUnit.drop (enterClosing t s))) :=
  (if_neg (not_or.2 ⟨hclosed, hclosing⟩)).trans
    (if_pos (Bool.eq_false_iff.2 fun hheld => h ((trackHasPassage_iff t s).1 hheld)))

variable (hheld : ∃ j : ContextId, ∃ p, s.passages[j] = some p ∧ p.track = t)
include hheld

theorem closeAfterOrder_of_held : closeAfterOrder slot t s =
    if parkFull s then refuse slot .parkFull s else park slot (.track t) (enterClosing t s) :=
  (if_neg (not_or.2 ⟨hclosed, hclosing⟩)).trans (if_neg (Bool.ne_false_iff.2 ((trackHasPassage_iff t s).2 hheld)))

theorem closeAfterOrder_of_full (h : 4 ≤ s.engine.parked.length) :
    closeAfterOrder slot t s = writeFinish slot (.refused .parkFull []) s :=
  (closeAfterOrder_of_held hclosed hclosing hheld).trans (if_pos ((parkFull_iff s).2 h))

theorem closeAfterOrder_of_parked (h : s.engine.parked.length < 4) :
    closeAfterOrder slot t s = park slot (.track t) (enterClosing t s) :=
  (closeAfterOrder_of_held hclosed hclosing hheld).trans (if_neg fun hfull => absurd ((parkFull_iff s).1 hfull) (by omega))

end

end

/-! ## The ends of passages (R37, R39, R40) -/

section
variable {k : ContextId} {p : Passage} {reason : CloseReason}

theorem isOpen_iff {p : Passage} : p.isOpen = true ↔ p.state ≠ .finishing := by simp [Passage.isOpen]

theorem endPassage_of_open (h : p.state ≠ .finishing) : endPassage k p reason = some (enterFinishing k p reason) :=
  if_pos (isOpen_iff.2 h)

theorem endPassage_of_ended (h : p.state = .finishing) (hclose : p.close = some .cleared ∨ p.close = some .stalled) :
    endPassage k p reason = some (replaceReason k p reason) := by
  refine (if_neg fun hopen => isOpen_iff.1 hopen h).trans ?_
  rcases hclose with hclose | hclose <;> rw [hclose]

theorem endPassage_of_closed (h : p.state = .finishing)
    (hclose : p.close = some .abandoned ∨ p.close = some .trackClosed) : endPassage k p reason = none := by
  refine (if_neg fun hopen => isOpen_iff.1 hopen h).trans ?_
  rcases hclose with hclose | hclose <;> rw [hclose]

end

/-- The requests of a passage removed, its runs aborted, the passage completed where nothing of it is outstanding. -/
def dropPassage (p : Passage) (s : State) : State := completeIfDone p.id (abortPassage p.id (removal p.id .abandoned s))

theorem closeWith_of_dropped {p : Passage} {reason : CloseReason} {s : State}
    (h : reason = .abandoned ∨ reason = .trackClosed) : closeWith p reason s = dropPassage p s := by
  rcases h with rfl | rfl <;> rfl

section
variable {k : ContextId} {p : Passage} {s : State} {reason : CloseReason}
  (hreason : reason = .abandoned ∨ reason = .trackClosed)
include hreason

theorem enterFinishing_dropped : enterFinishing k p reason s = dropPassage p (clearServed p.track p.id
    (setPassage k (some { p with state := .finishing, close := some reason, tail := none }) s)) :=
  closeWith_of_dropped hreason

theorem replaceReason_dropped :
    replaceReason k p reason s = dropPassage p (setPassage k (some { p with close := some reason }) s) :=
  closeWith_of_dropped hreason

end

section
variable {t : TrackId} {k : ContextId} {p : Passage} {s : State}

theorem endPassageAt_of_free (h : s.passages[k] = none) : endPassageAt t k s = s := by
  rw [endPassageAt, h]

variable (hp : s.passages[k] = some p)
include hp

theorem endPassageAt_of_other (h : p.track ≠ t) : endPassageAt t k s = s := by
  rw [endPassageAt, hp]
  exact if_neg h

variable (ht : p.track = t)
include ht

theorem endPassageAt_of_open (h : p.state ≠ .finishing) :
    endPassageAt t k s = dropPassage p (clearServed t p.id
      (setPassage k (some { p with state := .finishing, close := some .trackClosed, tail := none }) s)) := by
  subst ht
  rw [endPassageAt, hp]
  refine (if_pos rfl).trans ?_
  rw [endPassage_of_open h]
  exact enterFinishing_dropped (.inr rfl)

theorem endPassageAt_of_ended (h : p.state = .finishing) (hclose : p.close = some .cleared ∨ p.close = some .stalled) :
    endPassageAt t k s = dropPassage p (setPassage k (some { p with close := some .trackClosed }) s) := by
  rw [endPassageAt, hp]
  refine (if_pos ht).trans ?_
  rw [endPassage_of_ended h hclose]
  exact replaceReason_dropped (.inr rfl)

theorem endPassageAt_of_closed (h : p.state = .finishing)
    (hclose : p.close = some .abandoned ∨ p.close = some .trackClosed) : endPassageAt t k s = s := by
  rw [endPassageAt, hp]
  refine (if_pos ht).trans ?_
  rw [endPassage_of_closed h hclose]

end

/-- Settles O55: each order by the state of its track and what it holds; a passage by its track, its state and its close
reason. -/
theorem trackOrders : Obligations.TrackOrders := by
  refine ⟨?orders, fun t s => ⟨rfl, fun k => ⟨endPassageAt_of_free, fun p hp => ⟨endPassageAt_of_other hp,
    endPassageAt_of_open hp, endPassageAt_of_ended hp, endPassageAt_of_closed hp⟩⟩⟩⟩
  intro m slot t s b k u id ends held closing hfree hwatching
  have hopen := fun {track : Byte} {q : State} (h : openOrder slot track k = q) =>
    exec_of_runOrder (c := .openTrack m slot track) rfl hfree
      ((runOrder_openTrack (acceptedIn_of_device hwatching rfl)).trans h)
  have hnow := fun {track : Byte} {q : State} (h : closeOrder slot track 0 k = q) =>
    exec_of_runOrder (c := .closeTrackNow m slot track) rfl hfree
      ((runOrder_closeTrack (acceptedIn_of_device hwatching rfl)).trans h)
  have hafter := fun {track : Byte} {q : State} (h : closeOrder slot track 1 k = q) =>
    exec_of_runOrder (c := .closeTrackAfter m slot track) rfl hfree
      ((runOrder_closeTrack (acceptedIn_of_device hwatching rfl)).trans h)
  refine ⟨fun track h => ⟨hopen (openOrder_of_no_track h), hnow (closeOrder_of_no_track h),
      hafter (closeOrder_of_no_track h)⟩,
    fun h => hopen (openOrder_of_open (s := k) h), fun hclosed h => hopen (openOrder_of_disabled (s := k) hclosed h),
    fun hclosed henabled h => hopen (openOrder_of_settle (s := k) hclosed henabled h),
    fun hclosed henabled h => hopen (openOrder_of_no_settle (s := k) hclosed henabled h),
    fun h => hnow (closeOrder_now.trans (closeNowOrder_of_closed (s := k) h)),
    fun h => hnow (closeOrder_now.trans (closeNowOrder_of_open (s := k) h)),
    fun h => hafter (closeOrder_after.trans (closeAfterOrder_of_closed (s := k) h)),
    fun hclosed hclosing h => hafter (closeOrder_after.trans (closeAfterOrder_of_free (s := k) hclosed hclosing h)),
    fun hclosed hclosing hheld h => hafter (closeOrder_after.trans (closeAfterOrder_of_full (s := k) hclosed hclosing hheld h)),
    fun hclosed hclosing hheld h => hafter (closeOrder_after.trans (closeAfterOrder_of_parked (s := k) hclosed hclosing hheld h))⟩

/-! ## ABANDON PASSAGE (R39, R188) -/

section
variable {slot : SlotId} {id : PassageId} {s : State}

theorem outstandingOf_eq (id : PassageId) (s : State) :
    outstandingOf id s = match passageOf id s with | some q => q.outstanding | none => 0 := by
  unfold outstandingOf
  cases passageOf id s <;> rfl

section
variable (hid : id ≠ 0)
include hid

theorem abandonOrder_of_no_context (h : contextOf id s = none) :
    abandonOrder slot id s = writeFinish slot (.refused .noSuchPassage []) s := by
  refine (if_neg hid).trans ?_
  rw [h]
  rfl

variable {c : ContextId} {p : Passage} (hc : contextOf id s = some c) (hp : s.passages[c] = some p)
include hc hp

theorem abandonOrder_of_ending {f : State → State} {t : State} (h : endPassage c p .abandoned = some f) (ht : f s = t) :
    abandonOrder slot id s =
      writeFinish slot (.ok [byteOf p.track.val, byteOf (outstandingOf id t)]) t := by
  refine (if_neg hid).trans ?_
  rw [hc]
  dsimp only
  rw [hp]
  dsimp only
  rw [h, ← ht]

theorem abandonOrder_of_closed (h : endPassage c p .abandoned = none) :
    abandonOrder slot id s = writeFinish slot (.refused .already []) s := by
  refine (if_neg hid).trans ?_
  rw [hc]
  dsimp only
  rw [hp]
  dsimp only
  rw [h]
  rfl

end

end

/-- Settles O56: the passage by whether a context holds it, its state and its close reason. -/
theorem abandonPassage : Obligations.AbandonPassage := by
  intro m slot id s b k ends hfree hstate
  have haccepted : ∀ id, acceptedIn (.abandonPassage id) (slotTaken slot b).device = true :=
    fun id => hstate.elim (fun h => acceptedIn_of_device h rfl) fun h => acceptedIn_of_device h rfl
  have habandon := fun {id : PassageId} {q : State} (h : abandonOrder slot id k = q) =>
    exec_of_runOrder (c := .abandonPassage m slot id) rfl hfree ((runOrder_abandonPassage (haccepted id)).trans h)
  refine ⟨habandon (if_pos rfl), fun hid h => habandon (abandonOrder_of_no_context (s := k) hid h), fun c p hid hc hp => ?_⟩
  intro open_ shut after result
  have hresult : ∀ t, result t = .ok [byteOf p.track.val, byteOf (outstandingOf id t)] := fun t =>
    congrArg (fun n => OrderResult.ok [byteOf p.track.val, byteOf n]) (outstandingOf_eq id t).symm
  refine ⟨fun h => ?_, fun h hclose => ?_, fun h hclose =>
    habandon (abandonOrder_of_closed (s := k) hid hc hp (endPassage_of_closed h hclose))⟩
  · intro t
    have ht : enterFinishing c p .abandoned k = t := enterFinishing_dropped (.inl rfl)
    rw [hresult]
    exact habandon (abandonOrder_of_ending (s := k) hid hc hp (endPassage_of_open h) ht)
  · intro t
    have ht : replaceReason c p .abandoned k = t := replaceReason_dropped (.inl rfl)
    rw [hresult]
    exact habandon (abandonOrder_of_ending (s := k) hid hc hp (endPassage_of_ended h hclose) ht)

end Sys2Proof.Machine
end

section
/-! PROOFS. TEST SHOT and SET REST (09, R64, R76, R190, R194). -/

namespace Sys2Proof.Machine

open Sys2Proof

/-! ## Waking a station (R71, R73) -/

theorem wakeLimitMs_eq (st : StationId) (s : State) :
    wakeLimitMs st s = match s.stations[st].plan with | some p => p.wakeMs | none => 0 := by
  unfold wakeLimitMs
  cases s.stations[st].plan <;> rfl

theorem enterWaking_eq (st : StationId) (s : State) : enterWaking st s = { s with
    stations := s.stations.set st { s.stations[st] with
      state := .waking, restTimer := none
      wakeTimer := some (plusUs s.gantryTime
        ((match s.stations[st].plan with | some p => p.wakeMs | none => 0) * 1000)) }
    outputs := s.outputs ++ [.wake st] } :=
  congrArg (fun ms => { s with
    stations := s.stations.set st { s.stations[st] with
      state := .waking, restTimer := none, wakeTimer := some (plusUs s.gantryTime (ms * 1000)) }
    outputs := s.outputs ++ [Output.wake st] }) (wakeLimitMs_eq st s)

/-! ## TEST SHOT (R64, R190) -/

theorem testBusy_iff {st : StationId} {s : State} : testBusy st s = true ↔
    s.stations[st].state = .running ∨ s.stations[st].state = .ending ∨ ∃ r ∈ s.schedule, r.pid = 0 ∧ r.station = st := by
  simp [testBusy, or_assoc]

section
variable {slot : SlotId} {speed : Word} {s : State}

theorem testShotOrder_of_large {x y : Byte} (h : 8 ≤ x.toNat ∨ 16 ≤ y.toNat) :
    testShotOrder slot x y speed s = writeFinish slot (.refused .badArgument []) s := by
  unfold testShotOrder
  rcases h with h | h
  · rw [stationOfByte_large h]
    rfl
  · rw [programOfByte_large h]
    cases stationOfByte x <;> rfl

section
variable {st : StationId} {p : ProgramId}

/-- The checks of R64 in their order. -/
theorem testShotOrder_eq : testShotOrder slot (BitVec.ofNat 8 st.val) (BitVec.ofNat 8 p.val) speed s =
    if within 1389 111111 speed.toNat = false then refuse slot .badArgument s
    else if s.stations[st].state = .offline then refuse slot .wrongState s
    else if testBusy st s then refuse slot .stationBusy s
    else if parkFull s then refuse slot .parkFull s
    else placeTest (testRequest st p speed.toNat s) (park slot (.station st) s) := by
  rw [testShotOrder, stationOfByte_ofNat, programOfByte_ofNat]
  rfl

theorem testShotOrder_of_bad_speed (h : ¬(1389 ≤ speed.toNat ∧ speed.toNat ≤ 111111)) :
    testShotOrder slot (BitVec.ofNat 8 st.val) (BitVec.ofNat 8 p.val) speed s =
      writeFinish slot (.refused .badArgument []) s :=
  testShotOrder_eq.trans (if_pos (Bool.eq_false_iff.2 fun hw => h (within_iff.1 hw)))

variable (hspeed : 1389 ≤ speed.toNat ∧ speed.toNat ≤ 111111)
include hspeed

theorem testShotOrder_of_good_speed : testShotOrder slot (BitVec.ofNat 8 st.val) (BitVec.ofNat 8 p.val) speed s =
    if s.stations[st].state = .offline then refuse slot .wrongState s
    else if testBusy st s then refuse slot .stationBusy s
    else if parkFull s then refuse slot .parkFull s
    else placeTest (testRequest st p speed.toNat s) (park slot (.station st) s) :=
  testShotOrder_eq.trans (if_neg (Bool.ne_false_iff.2 (within_iff.2 hspeed)))

theorem testShotOrder_of_offline (h : s.stations[st].state = .offline) :
    testShotOrder slot (BitVec.ofNat 8 st.val) (BitVec.ofNat 8 p.val) speed s =
      writeFinish slot (.refused .wrongState []) s :=
  (testShotOrder_of_good_speed hspeed).trans (if_pos h)

variable (honline : s.stations[st].state ≠ .offline)
include honline

theorem testShotOrder_of_busy (h : s.stations[st].state = .running ∨ s.stations[st].state = .ending ∨
      ∃ r ∈ s.schedule, r.pid = 0 ∧ r.station = st) :
    testShotOrder slot (BitVec.ofNat 8 st.val) (BitVec.ofNat 8 p.val) speed s =
      writeFinish slot (.refused .stationBusy []) s :=
  (testShotOrder_of_good_speed hspeed).trans ((if_neg honline).trans (if_pos (testBusy_iff.2 h)))

variable (hfree : ¬(s.stations[st].state = .running ∨ s.stations[st].state = .ending ∨
  ∃ r ∈ s.schedule, r.pid = 0 ∧ r.station = st))
include hfree

theorem testShotOrder_of_full (h : 4 ≤ s.engine.parked.length) :
    testShotOrder slot (BitVec.ofNat 8 st.val) (BitVec.ofNat 8 p.val) speed s =
      writeFinish slot (.refused .parkFull []) s :=
  (testShotOrder_of_good_speed hspeed).trans ((if_neg honline).trans
    ((if_neg fun hb => hfree (testBusy_iff.1 hb)).trans (if_pos ((parkFull_iff s).2 h))))

theorem testShotOrder_of_parked (h : s.engine.parked.length < 4) :
    testShotOrder slot (BitVec.ofNat 8 st.val) (BitVec.ofNat 8 p.val) speed s =
      placeTest (testRequest st p speed.toNat s) (park slot (.station st) s) :=
  (testShotOrder_of_good_speed hspeed).trans ((if_neg honline).trans
    ((if_neg fun hb => hfree (testBusy_iff.1 hb)).trans
      (if_neg fun hfull => absurd ((parkFull_iff s).1 hfull) (by omega))))

end

end

theorem placedOffers_singleton (r : Request) (s : State) : placedOffers [r] s =
    if reached r.due s.gantryTime && s.schedule.find? (fun o => o.station == r.station) == some r then [.offer r.station]
    else [] := by
  unfold placedOffers earliestOf
  rw [List.filter_singleton]
  split
  · next h => rw [h]; rfl
  · next h => rw [Bool.eq_false_iff.2 h]; rfl

section
variable {r : Request} {s : State}

theorem placeTest_of_full (h : 48 ≤ s.schedule.length) :
    placeTest r s = declareMiss false .notPlanned r (scheduleFull r s) := if_pos h

/-- The request is placed, its resting station woken. -/
def placedTest (r : Request) (s : State) : State :=
  if s.stations[r.station].state = .resting then stationWakes r.station (enterWaking r.station (placeRequest r s))
  else placeRequest r s

theorem placeTest_of_room (h : s.schedule.length < 48) :
    placeTest r s = drain (placedOffers [r] (placedTest r s)) (placedTest r s) := by
  refine (if_neg (Nat.not_le.2 h)).trans ?_
  have hplaced : (if (placeRequest r s).stations[r.station].state = .resting then wakeNotice r.station (placeRequest r s)
      else placeRequest r s) = placedTest r s := by
    by_cases hresting : (placeRequest r s).stations[r.station].state = .resting
    · exact (if_pos hresting).trans ((wakeNotice_of_resting hresting).trans (if_pos (c := s.stations[r.station].state = .resting) hresting).symm)
    · exact (if_neg hresting).trans (if_neg (c := s.stations[r.station].state = .resting) hresting).symm
  exact congrArg (fun t => drain (placedOffers [r] t) t) hplaced

end

/-- Settles O57: the checks one after the other; the placing by whether the schedule is full and the station rests. -/
theorem testShot : Obligations.TestShot := by
  refine ⟨fun m slot st p speed s => ?_, fun st s => enterWaking_eq st s⟩
  intro b k run ends good offline busy parked r hfree hwatching
  have hshot := fun {x y : Byte} {q : State} (h : testShotOrder slot x y speed k = q) =>
    exec_of_runOrder (c := .testShot m slot x y speed) rfl hfree
      ((runOrder_testShot (acceptedIn_of_device hwatching rfl)).trans h)
  refine ⟨fun x y h => hshot (testShotOrder_of_large h), fun h => hshot (testShotOrder_of_bad_speed h),
    fun hgood h => hshot (testShotOrder_of_offline (s := k) hgood h),
    fun hgood honline h => hshot (testShotOrder_of_busy (s := k) hgood honline h),
    fun hgood honline hbusy h => hshot (testShotOrder_of_full (s := k) hgood honline hbusy h),
    fun hgood honline hbusy hpark hroom => ?_, fun hgood honline hbusy hpark hfull => ?_⟩
  · intro placed t
    have ht : placedTest r parked = t := rfl
    refine hshot ((testShotOrder_of_parked (s := k) hgood honline hbusy hpark).trans
      ((placeTest_of_room (r := r) (s := parked) hroom).trans ?_))
    rw [ht, placedOffers_singleton]
  · exact hshot ((testShotOrder_of_parked (s := k) hgood honline hbusy hpark).trans
      (placeTest_of_full (r := r) (s := parked) hfull))

/-! ## SET REST (R76, R194) -/

section
variable {slot : SlotId} {mask : Byte} {s : State}

theorem setRestOrder_of_rest (h : mask ≠ 0) : setRestOrder slot mask 0 s = restOrder slot restStation mask s :=
  (if_neg h).trans (if_pos rfl)

theorem setRestOrder_of_wake (h : mask ≠ 0) : setRestOrder slot mask 1 s = restOrder slot wakeStation mask s :=
  (if_neg h).trans rfl

theorem restBytes_eq (l : List (Option RestResult)) : l.map restByte = l.map fun r => match r with
    | none => (0xFF : Byte) | some .done => 0 | some .already => 1 | some .busy => 2 | some .offline => 3 := by
  refine List.map_congr_left fun r _ => ?_
  cases r with
  | none => rfl
  | some r => cases r <;> rfl

theorem all_restGood_eq (l : List (Option RestResult)) :
    l.all restGood = l.all fun r => r != some .busy && r != some .offline := by
  refine congrArg l.all (funext fun r => ?_)
  cases r with
  | none => rfl
  | some r => cases r <;> rfl

end

/-- The finish of a SET REST from the results of its stations (R194). -/
theorem restOrder_eq (slot : SlotId) (act : StationId → State → State × RestResult) (mask : Byte) (s : State) :
    restOrder slot act mask s = writeFinish slot
      (if (restEach act mask allStations s).2.all (fun r => r != some .busy && r != some .offline)
       then .ok ((restEach act mask allStations s).2.map fun r => match r with
         | none => (0xFF : Byte) | some .done => 0 | some .already => 1 | some .busy => 2 | some .offline => 3)
       else .refused .partialResult ((restEach act mask allStations s).2.map fun r => match r with
         | none => (0xFF : Byte) | some .done => 0 | some .already => 1 | some .busy => 2 | some .offline => 3))
      (restEach act mask allStations s).1 := by
  rw [← restBytes_eq, ← all_restGood_eq]
  rfl

section
variable {st : StationId} {s : State}

theorem restStation_of_offline (h : s.stations[st].state = .offline) : restStation st s = (s, .offline) := by
  rw [restStation, h]

theorem restStation_of_resting (h : s.stations[st].state = .resting) : restStation st s = (s, .already) := by
  rw [restStation, h]

theorem restStation_of_awake (h : s.stations[st].state = .waking ∨ s.stations[st].state = .idle) :
    restStation st s = (goToRest st s, .done) := by
  rcases h with h | h <;> rw [restStation, h]

theorem restStation_of_busy (h : s.stations[st].state = .running ∨ s.stations[st].state = .ending) :
    restStation st s = (s, .busy) := by
  rcases h with h | h <;> rw [restStation, h]

theorem wakeStation_of_offline (h : s.stations[st].state = .offline) : wakeStation st s = (s, .offline) := by
  rw [wakeStation, h]

theorem wakeStation_of_resting (h : s.stations[st].state = .resting) :
    wakeStation st s = (stationWakes st (enterWaking st s), .done) := by
  rw [wakeStation, h, wakeNotice_of_resting h]

theorem wakeStation_of_idle (h : s.stations[st].state = .idle) : wakeStation st s = (restartRest st s, .already) := by
  rw [wakeStation, h, wakeNotice_of_idle h]

theorem wakeStation_of_awake (h : s.stations[st].state = .waking ∨ s.stations[st].state = .running ∨
    s.stations[st].state = .ending) : wakeStation st s = (s, .already) := by
  rcases h with h | h | h <;> rw [wakeStation, h]

theorem restartRest_eq : restartRest st s = { s with stations := s.stations.set st { s.stations[st] with
    restTimer := if s.stations[st].restTimer = none then none else match s.stations[st].plan with
      | none => none
      | some p => if p.restS = 0 then none else some (plusUs s.gantryTime (p.restS * 1000000)) } } := by
  have hrestart : restartRest st s = modStation st (fun x => { x with
      restTimer := if s.stations[st].restTimer = none then none else restTimerOf st s }) s := by
    refine modStation_congr st ?_
    cases hrest : s.stations[st].restTimer <;> simp
  exact hrestart.trans (congrArg (fun timer => { s with stations := s.stations.set st { s.stations[st] with
    restTimer := if s.stations[st].restTimer = none then none else timer } }) (restTimerOf_eq st s))

end

/-- Settles O59: the order by its mask; each station by its state. -/
theorem setRest : Obligations.SetRest := by
  refine ⟨fun m slot mask s => ?_, fun st s => ?_, fun act mask st rest s => ⟨rfl, rfl, fun h => if_pos h,
    fun h => if_neg (Bool.eq_false_iff.1 h)⟩⟩
  · intro b k ends result hfree hstate
    have haccepted : ∀ mask action, acceptedIn (.setRest mask action) (slotTaken slot b).device = true :=
      fun _ _ => hstate.elim (fun h => acceptedIn_of_device h rfl) fun h => acceptedIn_of_device h rfl
    have hrest := fun {mask : Byte} {q : State} (h : setRestOrder slot mask 0 k = q) =>
      exec_of_runOrder (c := .setRestRest m slot mask) rfl hfree ((runOrder_setRest (haccepted mask 0)).trans h)
    have hwake := fun {mask : Byte} {q : State} (h : setRestOrder slot mask 1 k = q) =>
      exec_of_runOrder (c := .setRestWake m slot mask) rfl hfree ((runOrder_setRest (haccepted mask 1)).trans h)
    exact ⟨hrest rfl, hwake rfl, fun hmask =>
      ⟨hrest ((setRestOrder_of_rest hmask).trans (restOrder_eq slot restStation mask k)),
       hwake ((setRestOrder_of_wake hmask).trans (restOrder_eq slot wakeStation mask k))⟩⟩
  · intro x rested woken again
    have hwoken : stationWakes st (enterWaking st s) = woken := congrArg (stationWakes st) (enterWaking_eq st s)
    refine ⟨fun h => ⟨restStation_of_offline h, wakeStation_of_offline h⟩,
      fun h => ⟨restStation_of_resting h, (wakeStation_of_resting h).trans (congrArg (fun t => (t, RestResult.done)) hwoken)⟩,
      fun h => ⟨restStation_of_awake (.inl h), wakeStation_of_awake (.inl h)⟩,
      fun h => ⟨restStation_of_awake (.inr h),
        (wakeStation_of_idle h).trans (congrArg (fun t => (t, RestResult.already)) restartRest_eq)⟩,
      fun h => ⟨restStation_of_busy h, wakeStation_of_awake (.inr h)⟩⟩

end Sys2Proof.Machine
end

section
/-! PROOFS. GIVE CHAIN and DRAIN (07, 09, R147, R151, R189, R191), and the parts of a snapshot record (R169, 11.9). -/

namespace Sys2Proof.Machine

open Sys2Proof

/-! ## GIVE CHAIN by the phase of the mover (R147) -/

section
variable {slot : SlotId} {head : Addr} {s : State} (hhead : head ≠ 0)
include hhead

theorem giveChainOrder_of_head : giveChainOrder slot head s = writeFinish slot (.ok []) (giveHead head s) := if_neg hhead

theorem giveChainOrder_of_writing (h : s.mover.phase = .writing ∨ s.mover.phase = .marking) :
    giveChainOrder slot head s = writeFinish slot (.ok []) { s with mover := { s.mover with
      pendingHead := some head, withdrawn := []
      condition := if s.mover.condition = .dry then .ok else s.mover.condition } } := by
  have hto : headTo head s.mover = { s.mover with pendingHead := some head } := by
    unfold headTo; rcases h with h | h <;> simp only [h]
  have hbusy : s.mover.phase ≠ .idle := by rcases h with h | h <;> rw [h] <;> decide
  rw [giveChainOrder_of_head hhead, giveHead, modMover, hto]
  exact congrArg (writeFinish slot (.ok [])) (tryTake_of_blocked (.inr (.inr (.inr hbusy))))

theorem giveChainOrder_of_reading
    (h : s.mover.phase = .taking ∨ s.mover.phase = .following ∨ s.mover.phase = .probing) :
    giveChainOrder slot head s = writeFinish slot (.ok []) (tryTake { s with mover := { s.mover with
      cursor := .at head, phase := .idle, lookPending := false, withdrawn := []
      condition := if s.mover.condition = .dry then .ok else s.mover.condition
      abandoned := s.mover.abandoned ++ [s.mover.phase] } }) := by
  have hto : headTo head s.mover = { s.mover.abandonRead with cursor := .at head } := by
    unfold headTo; rcases h with h | h | h <;> simp only [h]
  rw [giveChainOrder_of_head hhead, giveHead, modMover, hto]
  rfl

theorem giveChainOrder_of_idle (h : s.mover.phase = .idle) :
    giveChainOrder slot head s = writeFinish slot (.ok []) (tryTake { s with mover := { s.mover with
      cursor := .at head, withdrawn := []
      condition := if s.mover.condition = .dry then .ok else s.mover.condition } }) := by
  have hto : headTo head s.mover = { s.mover with cursor := .at head } := by unfold headTo; simp only [h]
  rw [giveChainOrder_of_head hhead, giveHead, modMover, hto]

end

/-! ## DRAIN (R151, R189) -/

theorem any_drain_parked_iff {s : State} : (s.engine.parked.any fun p => p.waits == .drain) = true ↔
    ∃ q ∈ s.engine.parked, q.waits = .drain := by
  simp [List.any_eq_true]

section
variable {slot : SlotId} {s : State}

theorem drainOrder_of_parked (h : ∃ q ∈ s.engine.parked, q.waits = .drain) :
    drainOrder slot s = writeFinish slot (.refused .already []) s := if_pos (any_drain_parked_iff.2 h)

variable (hnone : ¬∃ q ∈ s.engine.parked, q.waits = .drain)
include hnone

theorem drainOrder_of_not_parked : drainOrder slot s =
    match drainVerdict s with
    | .failed a => writeFinish slot (drainFailed a) (modMover (fun m => { m with drainContext := none }) s)
    | .done => writeFinish slot (.ok []) s
    | .wait => if parkFull s then refuse slot .parkFull s else park slot .drain s :=
  if_neg fun h => hnone (any_drain_parked_iff.1 h)

theorem drainOrder_of_context {a : Addr} (h : s.mover.drainContext = some a) : drainOrder slot s =
    writeFinish slot (.refused .failed (le 8 a.toNat)) { s with mover := { s.mover with drainContext := none } } := by
  rw [drainOrder_of_not_parked hnone, drainVerdict_of_context h]
  rfl

variable (hcontext : s.mover.drainContext = none)
include hcontext

theorem drainOrder_of_met (h : drained s = true) : drainOrder slot s = writeFinish slot (.ok []) s := by
  rw [drainOrder_of_not_parked hnone, drainVerdict_of_met hcontext ((drained_iff s).1 h)]

theorem drainOrder_of_waiting (h : ¬drained s = true) :
    drainOrder slot s = if parkFull s then refuse slot .parkFull s else park slot .drain s := by
  rw [drainOrder_of_not_parked hnone, drainVerdict_of_not_met hcontext fun hmet => h ((drained_iff s).2 hmet)]

theorem drainOrder_of_full (h : ¬drained s = true) (hfull : 4 ≤ s.engine.parked.length) :
    drainOrder slot s = writeFinish slot (.refused .parkFull []) s :=
  (drainOrder_of_waiting hnone hcontext h).trans (if_pos ((parkFull_iff s).2 hfull))

theorem drainOrder_of_room (h : ¬drained s = true) (hroom : s.engine.parked.length < 4) :
    drainOrder slot s = park slot .drain s :=
  (drainOrder_of_waiting hnone hcontext h).trans
    (if_neg fun hfull => absurd ((parkFull_iff s).1 hfull) (by omega))

end

/-! ## SNAPSHOT (R169, R193) -/

theorem placementBytes_eq (p : Placement) : placementBytes p =
    match p with | .written row => [0, 0] ++ le 2 row.val | .held => [1] | .lost => [2] | .discarded => [] := by
  cases p <;> rfl

/-! ## Part 1 of a snapshot: the device, the tracks, the writer, the mover (11.9) -/

theorem latchByte_eq (l : Latches) : latchByte l =
    byteOf ((if l.orders then 2 else 0) + (if l.dry then 4 else 0) + (if l.fault then 8 else 0) +
      if l.failed then 16 else 0) := by
  unfold latchByte boolNat
  cases l.orders <;> cases l.dry <;> cases l.fault <;> cases l.failed <;> rfl

theorem trackByte_eq (u : TrackUnit) : trackByte u = byteOf ((match u.state with
    | .closed => 0 | .settling => 1 | .watching => 2 | .ignoring => 3 | .closing => 4) +
    if u.curtain.blind then 128 else 0) := by
  unfold trackByte boolNat
  cases u.state <;> cases u.curtain.blind <;> rfl

theorem boolByte_eq (b : Bool) : byteOf (boolNat b) = byteOf (if b then 1 else 0) := by cases b <;> rfl

theorem holdByte_eq (h : Option HoldReason) : byteOf (match h with | some h => h.cause.num | none => 0) =
    match h with | none => 0 | some .cardCheck => 20 | some .cardEmpty => 21 | some .cardWrite => 22 := by
  rcases h with _ | _ | _ | _ <;> rfl

theorem cursorByte_eq (c : Cursor) : byteOf c.code = match c with | .absent => 0 | .at _ => 1 | .after _ => 2 := by
  cases c <;> rfl

theorem phaseByte_eq (p : Phase) : byteOf p.code = match p with
    | .idle => 0 | .taking => 1 | .writing => 2 | .marking => 3 | .following => 4 | .probing => 5 := by
  cases p <;> rfl

theorem addrField_cursor_eq (c : Cursor) : addrField c.address = match c with
    | .absent => le 8 0xFFFFFFFFFFFFFFFF | .at a => le 8 a.toNat | .after a => le 8 a.toNat := by
  cases c <;> rfl

theorem addrField_current_eq (c : Option CurrentCard) : addrField (c.map CurrentCard.address) = match c with
    | none => le 8 0xFFFFFFFFFFFFFFFF | some c => le 8 c.address.toNat := by
  cases c <;> rfl

theorem addrField_eq (a : Option Addr) : addrField a = match a with
    | none => le 8 0xFFFFFFFFFFFFFFFF | some a => le 8 a.toNat := by
  cases a <;> rfl

theorem length_addrField (a : Option Addr) : (addrField a).length = 8 := length_le _ _

theorem drop_addrField {a : Option Addr} {n : Nat} (h : 8 ≤ n) : (addrField a).drop n = [] :=
  List.drop_eq_nil_of_le (by rw [length_addrField]; exact h)

section
variable (s : State)

/-- The fields of the device and of the writer. -/
theorem snapshotPart1_device : let at_ := rowField (snapshotPart1 s)
    at_ 8 6 = le 6 s.gantryTime.toNat ∧ at_ 14 1 = [byteOf s.device.code] ∧ at_ 15 1 = [byteOf s.failReason.code] ∧
    at_ 16 1 = [latchByte s.latches] ∧ at_ 17 1 = [byteOf s.engine.parked.length] ∧
    at_ 22 2 = le 2 s.writer.rowCursor.val ∧ at_ 24 1 = [byteOf s.writer.held.length] ∧
    at_ 25 1 = [byteOf (s.writer.held.filter Record.isNote).length] ∧ at_ 26 1 = [byteOf s.writer.notices.length] ∧
    at_ 27 1 = [byteOf (boolNat s.writer.overflow)] ∧ at_ 28 2 = le 2 s.writer.lost ∧
    at_ 32 4 = le 4 s.writer.sequence.toNat := by
  simp [rowField, snapshotPart1, padTo, length_le, List.drop_append, drop_le_eq_nil, allTracks]

theorem snapshotPart1_track (t : TrackId) : rowField (snapshotPart1 s) (18 + t.val) 1 = [trackByte s.tracks[t]] := by
  fin_cases t <;> simp [rowField, snapshotPart1, padTo, length_le, List.drop_append, drop_le_eq_nil, allTracks]

/-- The fields of the mover. -/
theorem snapshotPart1_mover : let at_ := rowField (snapshotPart1 s)
    at_ 36 1 = [byteOf s.mover.condition.code] ∧
    at_ 37 1 = [byteOf (match s.mover.hold with | some h => h.cause.num | none => 0)] ∧
    at_ 38 1 = [byteOf s.mover.cursor.code] ∧ at_ 39 1 = [byteOf s.mover.phase.code] ∧
    at_ 40 8 = addrField s.mover.cursor.address ∧ at_ 48 8 = addrField (s.mover.current.map CurrentCard.address) ∧
    at_ 56 1 = [byteOf s.mover.queue.length] ∧ at_ 57 1 = [byteOf s.mover.withdrawn.length] ∧
    at_ 64 8 = addrField s.mover.drainContext := by
  simp [rowField, snapshotPart1, padTo, length_le, List.drop_append, drop_le_eq_nil, allTracks, length_addrField,
    drop_addrField] <;> rfl

end

/-! ## Chunks of one length in a body -/

/-- The chunk of an entry stands behind the header and the chunks before it. -/
theorem rowField_chunk {α : Type} {f : α → List Byte} {n i : Nat} {a : α} {l : List α} {body header tail : List Byte}
    (hbody : body = header ++ (l.flatMap f ++ tail)) (hf : ∀ a, (f a).length = n) (ha : l[i]? = some a) :
    rowField body (8 + header.length + n * i) n = f a := by
  obtain ⟨hi, hget⟩ := List.getElem?_eq_some_iff.1 ha
  have hsplit : l = l.take i ++ a :: l.drop (i + 1) := by
    rw [← hget, ← List.drop_eq_getElem_cons hi, List.take_append_drop]
  have hchunks : l.flatMap f = (l.take i).flatMap f ++ (f a ++ (l.drop (i + 1)).flatMap f) := by
    conv_lhs => rw [hsplit]
    rw [List.flatMap_append, List.flatMap_cons]
  refine rowField_of_append (pre := header ++ (l.take i).flatMap f) (post := (l.drop (i + 1)).flatMap f ++ tail) ?_ ?_ (hf a)
  · rw [hbody, hchunks]
    simp only [List.append_assoc]
  · rw [List.length_append, length_flatMap_of_const hf, List.length_take, min_eq_left hi.le]
    omega

theorem allContexts_get (k : ContextId) : allContexts[k.val]? = some k := by fin_cases k <;> rfl
theorem allStations_get (st : StationId) : allStations[st.val]? = some st := by fin_cases st <;> rfl
theorem allUnits_get (u : UnitId) : allUnits[u.val]? = some u := by fin_cases u <;> rfl

end Sys2Proof.Machine
end

section
/-! PROOFS. Parts 2, 3 and 4 of a snapshot record (R169, 11.9). -/

namespace Sys2Proof.Machine

open Sys2Proof

theorem rowField_padTo_chunk {α : Type} {f : α → List Byte} {n i m off : Nat} {a : α} {l : List α} {header : List Byte}
    (hf : ∀ a, (f a).length = n) (ha : l[i]? = some a) (hoff : 8 + header.length + n * i = off) :
    rowField (padTo m (header ++ l.flatMap f)) off n = f a := by
  rw [← hoff]
  exact rowField_chunk (List.append_assoc _ _ _) hf ha

/-! ## Part 2: the passages -/

theorem length_speedField (v : Option Nat) : (speedField v).length = 4 := length_le _ _

theorem length_contextBytes (p : Option Passage) : (contextBytes p).length = 10 := by
  cases p with
  | none => rfl
  | some p => simp [contextBytes, length_le, length_speedField]

theorem contextBytes_none : contextBytes none = List.replicate 10 0 := by decide

theorem contextBytes_some (p : Passage) : contextBytes (some p) =
    [match p.state with | .measuring => 1 | .running => 2 | .finishing => 3,
     byteOf (p.track.val + if p.dir = .up then 0 else 16)] ++ le 2 p.id.toNat ++ le 4 (p.estimate.getD 0xFFFFFFFF) ++
    [byteOf ((p.sightings.filter fun x => x.number.isSome).length +
       16 * (p.sightings.filter fun x => x.state == .accounted).length), byteOf p.outstanding] := by
  have hstate : byteOf p.state.code = match p.state with | .measuring => 1 | .running => 2 | .finishing => 3 := by
    cases p.state <;> rfl
  have htrack : byteOf (p.track.val + 16 * directionCode (some p.dir)) = byteOf (p.track.val + if p.dir = .up then 0 else 16) := by
    cases p.dir <;> rfl
  rw [← hstate, ← htrack]
  rfl

section
variable (s : State)

theorem snapshotPart2_next : rowField (snapshotPart2 s) 8 2 = le 2 s.nextPassageId.toNat := by
  simp [rowField, snapshotPart2, padTo, length_le, List.drop_append]

theorem snapshotPart2_context (k : ContextId) :
    rowField (snapshotPart2 s) (16 + 10 * k.val) 10 = contextBytes s.passages[k] := by
  exact rowField_padTo_chunk (header := le 2 s.nextPassageId.toNat ++ le 6 0) (f := fun k => contextBytes s.passages[k])
    (fun k => length_contextBytes _) (allContexts_get k) (by simp [length_le])

/-! ## Part 3: the programs and the stations -/

theorem length_stationBytes (x : Station) : (stationBytes x).length = 10 := by
  unfold stationBytes
  split <;> simp [length_le]

theorem stateByte_eq (x : StationState) : byteOf x.code = match x with
    | .offline => 0 | .resting => 1 | .waking => 2 | .idle => 3 | .running => 4 | .ending => 5 := by
  cases x <;> rfl

theorem stationBytes_of_no_run {x : Station} (h : x.run = none) :
    stationBytes x = [byteOf x.state.code] ++ List.replicate 8 0 ++ [byteOf x.marks.length] := by
  have hzero : le 8 0 = List.replicate 8 0 := by decide
  rw [stationBytes, h, ← hzero]
  rfl

theorem stationBytes_of_run {x : Station} {r : Run} (h : x.run = some r) : stationBytes x =
    [byteOf x.state.code, byteOf ((match r.outcome with | .done => 0 | .abandoned => 2 | .faulted => 3) +
      (if r.unsynced then 4 else 0) + 128)] ++ le 2 r.pid.toNat ++
    [byteOf r.sighting, byteOf r.program.val, byteOf r.index.val,
     match r.wait with | .none => 0 | .flash => 1 | .exposure _ => 2 | .pause _ => 3 | .await _ => 4,
     byteOf r.exposures.length, byteOf x.marks.length] := by
  have houtcome : byteOf (r.outcome.code + 4 * boolNat r.unsynced + 128) =
      byteOf ((match r.outcome with | .done => 0 | .abandoned => 2 | .faulted => 3) + (if r.unsynced then 4 else 0) + 128) := by
    cases r.outcome <;> cases r.unsynced <;> rfl
  have hwait : byteOf r.wait.code =
      match r.wait with | .none => 0 | .flash => 1 | .exposure _ => 2 | .pause _ => 3 | .await _ => 4 := by
    cases r.wait <;> rfl
  rw [stationBytes, h, ← houtcome, ← hwait]

theorem snapshotPart3_loaded : rowField (snapshotPart3 s) 8 2 =
    le 2 (allPrograms.map fun p => if s.programs[p].isSome then 2 ^ p.val else 0).sum := by
  simp [rowField, snapshotPart3, loadedMask, padTo, length_le, List.drop_append]

theorem snapshotPart3_station (st : StationId) :
    rowField (snapshotPart3 s) (16 + 10 * st.val) 10 = stationBytes s.stations[st] := by
  exact rowField_padTo_chunk (header := le 2 (loadedMask s) ++ le 6 0) (f := fun st => stationBytes s.stations[st])
    (fun st => length_stationBytes _) (allStations_get st) (by simp [length_le])

/-! ## Part 4: the schedule, the stations' requests and ports, the units -/

theorem length_timeField (t : Option Time) : (timeField t).length = 6 := length_le _ _

theorem drop_timeField {t : Option Time} {n : Nat} (h : 6 ≤ n) : (timeField t).drop n = [] :=
  List.drop_eq_nil_of_le (by rw [length_timeField]; exact h)

theorem timeField_due_eq (l : List Request) : timeField (l.head?.map Request.due) =
    match l with | [] => le 6 0xFFFFFFFFFFFF | r :: _ => le 6 r.due.toNat := by
  cases l <;> rfl

theorem timeField_deadline_eq (l : List FlashRequest) : timeField (l.head?.map FlashRequest.deadline) =
    match l with | [] => le 6 0xFFFFFFFFFFFF | q :: _ => le 6 q.deadline.toNat := by
  cases l <;> rfl

theorem unitByte_eq (u : StrobeUnit) : unitByte u = byteOf ((match u.state with
    | .out => 0 | .resting => 1 | .charging => 2 | .ready => 3 | .firing => 4) +
    16 * (match u.firing with | none => 7 | some st => st.val)) := by
  unfold unitByte
  cases u.state <;> cases u.firing <;> rfl

theorem portBytes_eq (p : Port) : portBytes p = [p.nextTag,
    byteOf (p.awaited.length + 16 * (p.awaited.filter fun a => a.phase != .opened).length), byteOf p.silent] := by
  have hwaiting : p.awaited.filter Awaited.isWaiting = p.awaited.filter fun a => a.phase != .opened := by
    refine List.filter_congr fun a _ => ?_
    unfold Awaited.isWaiting
    cases a.phase <;> rfl
  rw [portBytes, hwaiting]

/-- The counts and times of the schedule and of the waiting list. -/
theorem snapshotPart4_counts : let at_ := rowField (snapshotPart4 s)
    at_ 8 1 = [byteOf s.schedule.length] ∧ at_ 9 1 = [byteOf (s.schedule.filter fun r => r.pid == 0).length] ∧
    at_ 10 1 = [byteOf (s.schedule.filter fun r => reached r.due s.gantryTime).length] ∧
    at_ 12 6 = timeField (s.schedule.head?.map Request.due) ∧ at_ 32 1 = [byteOf s.waiting.length] ∧
    at_ 33 1 = [byteOf (maskOf (s.waiting.map FlashRequest.station))] ∧
    at_ 34 1 = [byteOf (maskOf (allStations.filter fun st => exposureOpen st s))] ∧
    at_ 36 6 = timeField (s.waiting.head?.map FlashRequest.deadline) := by
  have hstations : allStations.length = 8 := rfl
  have hunits : allUnits.length = 6 := rfl
  have hrequests : ∀ {n : Nat} (f : StationId → Byte), 8 ≤ n → (allStations.map f).drop n = [] := fun f h =>
    List.drop_eq_nil_of_le (by rw [List.length_map, hstations]; exact h)
  have hbytes : ∀ {n : Nat} (f : UnitId → Byte), 6 ≤ n → (allUnits.map f).drop n = [] := fun f h =>
    List.drop_eq_nil_of_le (by rw [List.length_map, hunits]; exact h)
  simp [rowField, snapshotPart4, padTo, List.drop_append, length_timeField, drop_timeField, hstations, hunits, hrequests,
    hbytes]

theorem snapshotPart4_requests (st : StationId) : rowField (snapshotPart4 s) (18 + st.val) 1 =
    [byteOf (s.schedule.filter fun r => r.station == st).length] := by
  fin_cases st <;> simp [rowField, snapshotPart4, padTo, List.drop_append, length_timeField, drop_timeField, allStations]

theorem snapshotPart4_unit (u : UnitId) : rowField (snapshotPart4 s) (26 + u.val) 1 = [unitByte s.units[u]] := by
  fin_cases u <;>
    simp [rowField, snapshotPart4, padTo, List.drop_append, length_timeField, drop_timeField, allStations, allUnits]

theorem snapshotPart4_port (st : StationId) :
    rowField (snapshotPart4 s) (42 + 3 * st.val) 3 = portBytes s.ports[st] := by
  refine rowField_padTo_chunk (f := fun st => portBytes s.ports[st]) (fun st => rfl) (allStations_get st) ?_
  simp [length_timeField, allStations, allUnits]

end

end Sys2Proof.Machine
end

section
/-! PROOFS. O58: GIVE CHAIN, DRAIN and SNAPSHOT at a slot that is taken, and the snapshot record by its offsets. -/

namespace Sys2Proof.Machine

open Sys2Proof

theorem bytes_congr {l : List Byte} {a b : Byte} (h : l = [a]) (hab : a = b) : l = [b] := hab ▸ h

/-- Part 1 of a snapshot record by the offsets of 11.9. -/
theorem snapshotPart1_layout (s : State) :
    let at_ := rowField (snapshotPart1 s)
    let latch (bit : Bool) (weight : Nat) : Nat := if bit then weight else 0
    at_ 8 6 = le 6 s.gantryTime.toNat ∧ at_ 14 1 = [byteOf s.device.code] ∧ at_ 15 1 = [byteOf s.failReason.code] ∧
    at_ 16 1 = [byteOf (latch s.latches.orders 2 + latch s.latches.dry 4 + latch s.latches.fault 8 +
      latch s.latches.failed 16)] ∧
    at_ 17 1 = [byteOf s.engine.parked.length] ∧
    (∀ t : TrackId, at_ (18 + t.val) 1 = [byteOf ((match s.tracks[t].state with
      | .closed => 0 | .settling => 1 | .watching => 2 | .ignoring => 3 | .closing => 4) +
      latch s.tracks[t].curtain.blind 128)]) ∧
    at_ 22 2 = le 2 s.writer.rowCursor.val ∧ at_ 24 1 = [byteOf s.writer.held.length] ∧
    at_ 25 1 = [byteOf (s.writer.held.filter Record.isNote).length] ∧ at_ 26 1 = [byteOf s.writer.notices.length] ∧
    at_ 27 1 = [byteOf (latch s.writer.overflow 1)] ∧ at_ 28 2 = le 2 s.writer.lost ∧
    at_ 32 4 = le 4 s.writer.sequence.toNat ∧ at_ 36 1 = [byteOf s.mover.condition.code] ∧
    at_ 37 1 = [match s.mover.hold with | none => 0 | some .cardCheck => 20 | some .cardEmpty => 21 | some .cardWrite => 22] ∧
    at_ 38 1 = [match s.mover.cursor with | .absent => 0 | .at _ => 1 | .after _ => 2] ∧
    at_ 39 1 = [match s.mover.phase with
      | .idle => 0 | .taking => 1 | .writing => 2 | .marking => 3 | .following => 4 | .probing => 5] ∧
    at_ 40 8 = (match s.mover.cursor with
      | .absent => le 8 0xFFFFFFFFFFFFFFFF | .at a => le 8 a.toNat | .after a => le 8 a.toNat) ∧
    at_ 48 8 = (match s.mover.current with | none => le 8 0xFFFFFFFFFFFFFFFF | some c => le 8 c.address.toNat) ∧
    at_ 56 1 = [byteOf s.mover.queue.length] ∧ at_ 57 1 = [byteOf s.mover.withdrawn.length] ∧
    at_ 64 8 = (match s.mover.drainContext with | none => le 8 0xFFFFFFFFFFFFFFFF | some a => le 8 a.toNat) := by
  obtain ⟨htime, hdevice, hreason, hlatches, hparked, hcursor, hheld, hnotes, hnotices, hoverflow, hlost, hsequence⟩ :=
    snapshotPart1_device s
  obtain ⟨hcondition, hhold, hat, hphase, haddress, hcurrent, hqueue, hwithdrawn, hdrain⟩ := snapshotPart1_mover s
  exact ⟨htime, hdevice, hreason, bytes_congr hlatches (latchByte_eq s.latches), hparked,
    fun t => bytes_congr (snapshotPart1_track s t) (trackByte_eq s.tracks[t]), hcursor, hheld, hnotes, hnotices,
    bytes_congr hoverflow (boolByte_eq s.writer.overflow), hlost, hsequence, hcondition,
    bytes_congr hhold (holdByte_eq s.mover.hold), bytes_congr hat (cursorByte_eq s.mover.cursor),
    bytes_congr hphase (phaseByte_eq s.mover.phase), haddress.trans (addrField_cursor_eq s.mover.cursor),
    hcurrent.trans (addrField_current_eq s.mover.current), hqueue, hwithdrawn,
    hdrain.trans (addrField_eq s.mover.drainContext)⟩

/-- Part 4 of a snapshot record by the offsets of 11.9. -/
theorem snapshotPart4_layout (s : State) :
    let at_ := rowField (snapshotPart4 s)
    let mask (sts : List StationId) : Nat := (sts.map fun x => 2 ^ x.val).sum
    at_ 8 1 = [byteOf s.schedule.length] ∧ at_ 9 1 = [byteOf (s.schedule.filter fun r => r.pid == 0).length] ∧
    at_ 10 1 = [byteOf (s.schedule.filter fun r => reached r.due s.gantryTime).length] ∧
    at_ 12 6 = (match s.schedule with | [] => le 6 0xFFFFFFFFFFFF | r :: _ => le 6 r.due.toNat) ∧
    (∀ st : StationId,
      at_ (18 + st.val) 1 = [byteOf (s.schedule.filter fun r => r.station == st).length] ∧
      at_ (42 + 3 * st.val) 3 = [s.ports[st].nextTag,
        byteOf (s.ports[st].awaited.length + 16 * (s.ports[st].awaited.filter fun a => a.phase != .opened).length),
        byteOf s.ports[st].silent]) ∧
    (∀ u : UnitId, at_ (26 + u.val) 1 = [byteOf ((match s.units[u].state with
      | .out => 0 | .resting => 1 | .charging => 2 | .ready => 3 | .firing => 4) +
      16 * (match s.units[u].firing with | none => 7 | some st => st.val))]) ∧
    at_ 32 1 = [byteOf s.waiting.length] ∧ at_ 33 1 = [byteOf (mask (s.waiting.map FlashRequest.station))] ∧
    at_ 34 1 = [byteOf (mask (allStations.filter fun st =>
      s.openExposures[st].isSome || s.lingering.any fun x => x.station == st))] ∧
    at_ 36 6 = (match s.waiting with | [] => le 6 0xFFFFFFFFFFFF | q :: _ => le 6 q.deadline.toNat) := by
  obtain ⟨hschedule, htest, hdue, hfirst, hwaiting, hmask, hopen, hdeadline⟩ := snapshotPart4_counts s
  exact ⟨hschedule, htest, hdue, hfirst.trans (timeField_due_eq s.schedule),
    fun st => ⟨snapshotPart4_requests s st, (snapshotPart4_port s st).trans (portBytes_eq s.ports[st])⟩,
    fun u => bytes_congr (snapshotPart4_unit s u) (unitByte_eq s.units[u]), hwaiting, hmask, hopen,
    hdeadline.trans (timeField_deadline_eq s.waiting)⟩

/-- Settles O58: each order by the state of the mover and of the parked orders; the four parts field by field. -/
theorem chainDrainSnapshot : Obligations.ChainDrainSnapshot := by
  refine ⟨?orders, fun s => ⟨snapshotPart1 s, snapshotPart2 s, snapshotPart3 s, snapshotPart4 s, rfl, rfl, rfl,
    snapshotPart1_layout s,
    ⟨snapshotPart2_next s, fun k => ⟨fun h => ?free, fun p h => ?held⟩⟩,
    ⟨snapshotPart3_loaded s, fun st => ?station⟩, snapshotPart4_layout s⟩⟩
  case free =>
    refine (snapshotPart2_context s k).trans ?_
    rw [h]
    exact contextBytes_none
  case held =>
    refine (snapshotPart2_context s k).trans ?_
    rw [h]
    exact contextBytes_some p
  case station =>
    intro x state
    have hstate : byteOf x.state.code = state := stateByte_eq x.state
    refine ⟨fun h => ?_, fun r h => ?_⟩
    · rw [← hstate]
      exact (snapshotPart3_station s st).trans (stationBytes_of_no_run h)
    · rw [← hstate]
      exact (snapshotPart3_station s st).trans (stationBytes_of_run h)
  case orders =>
    intro m slot s b k ends hfree
    have hlive : ∀ o, acceptedIn o b.device = (b.device != .failed) → acceptedIn o (slotTaken slot b).device = true :=
      fun o h => h.trans (bne_iff_ne.2 (live_of_slotFree hfree))
    have hgive := fun {head : Addr} {q : State} (h : giveChainOrder slot head k = q) =>
      exec_of_runOrder (c := .giveChain m slot head) rfl hfree ((runOrder_giveChain (hlive _ rfl)).trans h)
    have hdrain := fun {q : State} (h : drainOrder slot k = q) =>
      exec_of_runOrder (c := .drain m slot) rfl hfree ((runOrder_drain (hlive _ rfl)).trans h)
    refine ⟨hgive rfl, fun head hhead => ⟨fun h => hgive (giveChainOrder_of_writing (s := k) hhead h),
        fun h => hgive (giveChainOrder_of_reading (s := k) hhead h),
        fun h => hgive (giveChainOrder_of_idle (s := k) hhead h)⟩,
      ⟨fun h => hdrain (drainOrder_of_parked (s := k) h), fun a hno h => hdrain (drainOrder_of_context (s := k) hno h),
        fun hno hcontext h => hdrain (drainOrder_of_met (s := k) hno hcontext h),
        fun hno hcontext h hfull => hdrain (drainOrder_of_full (s := k) hno hcontext h hfull),
        fun hno hcontext h hroom => hdrain (drainOrder_of_room (s := k) hno hcontext h hroom)⟩, ?_⟩
    intro q
    exact exec_of_runOrder (c := .snapshot m slot) rfl hfree ((runOrder_snapshot (hlive _ rfl)).trans
      (congrArg (fun bytes => writeFinish slot (.ok bytes) q.1) (placementBytes_eq q.2)))

end Sys2Proof.Machine
end

section
/-! PROOFS. The completions of the reads that orders wait on, and the withdraw list (R69, R148, R183, R185, R192). -/

namespace Sys2Proof.Machine

open Sys2Proof

/-! ## What each order does with its read -/

section
variable {slot : SlotId} {s : State}

theorem finishPlan_of_unloadable {plan : List Byte} (h : ¬(s.device = .dormant ∨ s.device = .ready)) :
    finishPlan slot (some plan) s = writeFinish slot (.refused .wrongState []) s :=
  if_pos (Bool.eq_false_iff.2 fun hload => h ((loadable_iff s).1 hload))

theorem finishPlan_of_loadable {plan : List Byte} (h : s.device = .dormant ∨ s.device = .ready) :
    finishPlan slot (some plan) s =
      if planSumGood plan = false then refuse slot .planCheck s
      else match firstBadField plan with
        | some offset => writeFinish slot (.refused .badArgument (le 4 offset)) s
        | none => writeFinish slot (.ok []) (acceptPlan plan s) :=
  if_neg fun hload => Bool.eq_false_iff.1 hload ((loadable_iff s).2 h)

theorem planSumGood_iff (plan : List Byte) :
    planSumGood plan = true ↔ ((List.range 436).map fun i => leAt plan (2 * i) 2).sum % 65536 = 0 := beq_iff_eq

theorem finishPlan_of_bad_sum {plan : List Byte} (h : s.device = .dormant ∨ s.device = .ready)
    (hsum : ¬((List.range 436).map fun i => leAt plan (2 * i) 2).sum % 65536 = 0) :
    finishPlan slot (some plan) s = writeFinish slot (.refused .planCheck []) s :=
  (finishPlan_of_loadable h).trans (if_pos (Bool.eq_false_iff.2 fun hgood => hsum ((planSumGood_iff plan).1 hgood)))

theorem finishPlan_of_good_sum {plan : List Byte} (h : s.device = .dormant ∨ s.device = .ready)
    (hsum : ((List.range 436).map fun i => leAt plan (2 * i) 2).sum % 65536 = 0) :
    finishPlan slot (some plan) s = match firstBadField plan with
      | some offset => writeFinish slot (.refused .badArgument (le 4 offset)) s
      | none => writeFinish slot (.ok []) (acceptPlan plan s) :=
  (finishPlan_of_loadable h).trans (if_neg fun hbad => Bool.eq_false_iff.1 hbad ((planSumGood_iff plan).2 hsum))

theorem finishPlan_of_bad_field {plan : List Byte} {offset : Nat} (h : s.device = .dormant ∨ s.device = .ready)
    (hsum : ((List.range 436).map fun i => leAt plan (2 * i) 2).sum % 65536 = 0) (hbad : firstBadField plan = some offset) :
    finishPlan slot (some plan) s = writeFinish slot (.refused .badArgument (le 4 offset)) s := by
  rw [finishPlan_of_good_sum h hsum, hbad]

theorem finishPlan_of_good {plan : List Byte} (h : s.device = .dormant ∨ s.device = .ready)
    (hsum : ((List.range 436).map fun i => leAt plan (2 * i) 2).sum % 65536 = 0) (hgood : firstBadField plan = none) :
    finishPlan slot (some plan) s = writeFinish slot (.ok []) (acceptPlan plan s) := by
  rw [finishPlan_of_good_sum h hsum, hgood]

theorem finishPrograms_of_unloadable {mask : BitVec 16} {table : List Byte}
    (h : ¬(s.device = .dormant ∨ s.device = .ready)) :
    finishPrograms slot mask (some table) s = writeFinish slot (.refused .wrongState []) s :=
  if_pos (Bool.eq_false_iff.2 fun hload => h ((loadable_iff s).1 hload))

theorem finishPrograms_of_loadable {mask : BitVec 16} {table : List Byte} (h : s.device = .dormant ∨ s.device = .ready) :
    finishPrograms slot mask (some table) s = match programsOf table mask allPrograms with
      | .error (p, i, f) => writeFinish slot (.refused .badArgument [byteOf p, byteOf i, byteOf f.code]) s
      | .ok programs => writeFinish slot (.ok (le 2 mask.toNat)) (loadAll programs s) :=
  if_neg fun hload => Bool.eq_false_iff.1 hload ((loadable_iff s).2 h)

theorem finishPrograms_of_bad_step {mask : BitVec 16} {table : List Byte} {p i : Nat} {f : StepFailure}
    (h : s.device = .dormant ∨ s.device = .ready) (hbad : programsOf table mask allPrograms = .error (p, i, f)) :
    finishPrograms slot mask (some table) s =
      writeFinish slot (.refused .badArgument [byteOf p, byteOf i, byteOf f.code]) s := by
  rw [finishPrograms_of_loadable h, hbad]

theorem finishPrograms_of_good {mask : BitVec 16} {table : List Byte} {programs : List (ProgramId × Program)}
    (h : s.device = .dormant ∨ s.device = .ready) (hgood : programsOf table mask allPrograms = .ok programs) :
    finishPrograms slot mask (some table) s = writeFinish slot (.ok (le 2 mask.toNat)) (loadAll programs s) := by
  rw [finishPrograms_of_loadable h, hgood]

theorem finishWithdraw_of_zero {list : List Addr} (h : 0 ∈ list) :
    finishWithdraw slot (some list) s = writeFinish slot (.refused .badArgument []) s :=
  if_pos (List.contains_iff_mem.2 h)

theorem finishWithdraw_of_nonzero {list : List Addr} (h : 0 ∉ list) :
    finishWithdraw slot (some list) s =
      writeFinish slot (if (withdrawAll list s.mover).2.all EntryResult.good then .ok (entryBytes (withdrawAll list s.mover).2)
        else .refused .partialResult (entryBytes (withdrawAll list s.mover).2))
      { s with mover := (withdrawAll list s.mover).1 } :=
  if_neg fun hzero => h (List.contains_iff_mem.1 hzero)

end

/-! ## The entry results of WITHDRAW CARDS -/

theorem entryGood_iff (r : EntryResult) : r.good = true ↔ r = .added ∨ r = .already := by cases r <;> decide

theorem not_entryGood_iff (r : EntryResult) : ¬r.good = true ↔ r = .busy ∨ r = .full := by cases r <;> decide

section
variable {slot : SlotId} {list : List Addr} {s : State} (h : 0 ∉ list)
include h

theorem finishWithdraw_of_good (hall : ∀ r ∈ (withdrawAll list s.mover).2, r = .added ∨ r = .already) :
    finishWithdraw slot (some list) s = writeFinish slot (.ok (entryBytes (withdrawAll list s.mover).2))
      { s with mover := (withdrawAll list s.mover).1 } := by
  rw [finishWithdraw_of_nonzero h, if_pos (List.all_eq_true.2 fun r hr => (entryGood_iff r).2 (hall r hr))]

theorem finishWithdraw_of_partial (hsome : ∃ r ∈ (withdrawAll list s.mover).2, r = .busy ∨ r = .full) :
    finishWithdraw slot (some list) s =
      writeFinish slot (.refused .partialResult (entryBytes (withdrawAll list s.mover).2))
        { s with mover := (withdrawAll list s.mover).1 } := by
  obtain ⟨r, hr, hbad⟩ := hsome
  rw [finishWithdraw_of_nonzero h, if_neg fun hall => (not_entryGood_iff r).2 hbad (List.all_eq_true.1 hall r hr)]

end

theorem busyCard_iff (a : Addr) (m : TileMover) :
    busyCard a m = true ↔ (∃ c ∈ m.current, c.address = a) ∨ ∃ c ∈ m.marked, c.address = a := by
  unfold busyCard
  cases m.current <;> cases m.marked <;> simp

section
variable {a : Addr} {m : TileMover} (rest : List Addr)

theorem entryResult_of_busy (h : busyCard a m = true) : entryResult a m = .busy := if_pos h

theorem entryResult_of_listed (h : ¬busyCard a m = true) (hlisted : a ∈ m.withdrawn) : entryResult a m = .already :=
  (if_neg h).trans (if_pos (List.contains_iff_mem.2 hlisted))

theorem entryResult_of_unlisted (h : ¬busyCard a m = true) (hlisted : a ∉ m.withdrawn) :
    entryResult a m = if maxWithdrawn ≤ m.withdrawn.length then .full else .added :=
  (if_neg h).trans (if_neg fun hmem => hlisted (List.contains_iff_mem.1 hmem))

theorem withdrawAll_of_kept {r : EntryResult} (h : entryResult a m = r) (hr : r ≠ .added) :
    withdrawAll (a :: rest) m = ((withdrawAll rest m).1, r :: (withdrawAll rest m).2) := by
  rw [withdrawAll, h, if_neg hr]

theorem withdrawAll_of_added (h : entryResult a m = .added) :
    withdrawAll (a :: rest) m =
      ((withdrawAll rest { m with withdrawn := m.withdrawn ++ [a] }).1,
        .added :: (withdrawAll rest { m with withdrawn := m.withdrawn ++ [a] }).2) := by
  rw [withdrawAll, h, if_pos rfl]

end

/-- The codes of a failed program step (11.3). -/
theorem stepFailure_codes :
    ([.unknownStep, .badTarget, .outOfRange] : List StepFailure).map StepFailure.code = [1, 2, 3] := rfl

/-! ## The completions -/

section
variable {m : Moment} {slot : SlotId} {a : Addr} {s : State} (hlive : (taken m s).device ≠ .failed)
include hlive

theorem planReadCompletion_of_waiting (h : (taken m s).engine.executing = some (slot, .plan a)) {read : Option (List Byte)}
    {t : State} (ht : finishPlan slot read (modEngine (fun e => { e with executing := none }) (taken m s)) = t) :
    exec (.planReadCompletion m read) s =
      .next (conclude (continueScan slot (if t.device = .failed then t else settle t))) := by
  refine (execPlanReadCompletion.eq_1 m read s).trans (event_of_effect hlive ?_)
  rw [h, ← ht] <;> rfl

theorem programTableReadCompletion_of_waiting {mask : BitVec 16}
    (h : (taken m s).engine.executing = some (slot, .programs mask a)) {read : Option (List Byte)} {t : State}
    (ht : finishPrograms slot mask read (modEngine (fun e => { e with executing := none }) (taken m s)) = t) :
    exec (.programTableReadCompletion m read) s =
      .next (conclude (continueScan slot (if t.device = .failed then t else settle t))) := by
  refine (execProgramTableReadCompletion.eq_1 m read s).trans (event_of_effect hlive ?_)
  rw [h, ← ht] <;> rfl

theorem addressListReadCompletion_of_waiting {n : Nat} (h : (taken m s).engine.executing = some (slot, .addresses n a))
    {read : Option (List Addr)} (hread : listComplete n read = true) {t : State}
    (ht : finishWithdraw slot read (modEngine (fun e => { e with executing := none }) (taken m s)) = t) :
    exec (.addressListReadCompletion m read) s =
      .next (conclude (continueScan slot (if t.device = .failed then t else settle t))) := by
  refine (execAddressListReadCompletion.eq_1 m read s).trans (event_of_effect hlive ?_)
  rw [h, ← ht]
  exact if_pos hread

theorem addressListReadCompletion_of_other_length {n : Nat}
    (h : (taken m s).engine.executing = some (slot, .addresses n a)) {list : List Addr} (hlength : list.length ≠ n) :
    exec (.addressListReadCompletion m (some list)) s = .next (conclude (taken m s)) := by
  refine (execAddressListReadCompletion.eq_1 m (some list) s).trans (event_of_effect hlive ?_)
  rw [h]
  exact if_neg fun hcomplete => hlength (beq_iff_eq.1 hcomplete)

theorem readCompletions_of_none (h : (taken m s).engine.executing = none) (plan table : Option (List Byte))
    (list : Option (List Addr)) :
    exec (.planReadCompletion m plan) s = .next (conclude (taken m s)) ∧
      exec (.programTableReadCompletion m table) s = .next (conclude (taken m s)) ∧
      exec (.addressListReadCompletion m list) s = .next (conclude (taken m s)) := by
  refine ⟨(execPlanReadCompletion.eq_1 m plan s).trans (event_of_effect hlive ?_),
    (execProgramTableReadCompletion.eq_1 m table s).trans (event_of_effect hlive ?_),
    (execAddressListReadCompletion.eq_1 m list s).trans (event_of_effect hlive ?_)⟩ <;>
  rw [h]

end

end Sys2Proof.Machine
end

section
/-! PROOFS. The checks of a site plan: the first field out of range is the least one (R183, R207, R216). -/

namespace Sys2Proof.Machine

open Sys2Proof

/-! ## The first failing check of an ordered list -/

theorem within_eq_false_iff {lo hi x : Nat} : within lo hi x = false ↔ ¬(lo ≤ x ∧ x ≤ hi) := by
  rw [← within_iff, Bool.not_eq_true]

theorem find?_failing_eq_none_iff (checks : List (Nat × Bool)) :
    (checks.find? fun c => !c.2).map Prod.fst = none ↔ ∀ o, (o, false) ∉ checks := by
  rw [Option.map_eq_none_iff, List.find?_eq_none]
  exact ⟨fun h o ho => h _ ho rfl, fun h c hc hbad => h c.1 (by
    have hfalse : c.2 = false := by simpa using hbad
    rwa [← hfalse])⟩

theorem find?_failing_eq_some_iff (o : Nat) : ∀ checks : List (Nat × Bool), checks.Pairwise (fun c d => c.1 < d.1) →
    ((checks.find? fun c => !c.2).map Prod.fst = some o ↔
      (o, false) ∈ checks ∧ ∀ q, (q, false) ∈ checks → o ≤ q)
  | [], _ => by simp
  | (p, true) :: rest, h => by
    rw [List.find?_cons_of_neg (by simp), find?_failing_eq_some_iff o rest (List.pairwise_cons.1 h).2]
    simp
  | (p, false) :: rest, h => by
    have hleast := (List.pairwise_cons.1 h).1
    rw [List.find?_cons_of_pos (by rfl)]
    constructor
    · intro ho
      obtain rfl : p = o := by simpa using ho
      refine ⟨List.mem_cons_self, fun q hq => ?_⟩
      rcases List.mem_cons.1 hq with heq | hq
      · exact le_of_eq (congrArg Prod.fst heq).symm
      · exact (hleast _ hq).le
    · rintro ⟨hmem, hfirst⟩
      have hle := hfirst p List.mem_cons_self
      rcases List.mem_cons.1 hmem with heq | hmem
      · exact congrArg some (congrArg Prod.fst heq).symm
      · exact absurd (hleast _ hmem) (not_lt.2 hle)

/-! ## Which checks fail -/

section
variable (plan : List Byte)

theorem mem_trackChecks_iff (t pos : Nat) :
    (0x010 + 16 * t + pos, false) ∈ trackChecks plan t ↔ trackFieldBad plan t pos := by
  unfold trackChecks trackFieldBad
  by_cases hdisabled : leAt plan (16 + 16 * t) 1 = 0
  · simp [hdisabled, within_eq_false_iff]
  · simp [hdisabled, within_eq_false_iff]

theorem mem_stationChecks_iff (st pos : Nat) :
    (0x050 + 80 * st + pos, false) ∈ stationChecks plan st ↔ stationFieldBad plan st pos := by
  unfold stationChecks stationFieldBad
  have hoffset (x : Int) : (-60000 ≤ x → x ≤ 60000 → x = 0) ↔ x < -60000 ∨ 60000 < x ∨ x = 0 := by omega
  have hbeam (beam : Nat) : 32 + 2 * beam = pos ↔ pos = 32 + 2 * beam := eq_comm
  simp [within_eq_false_iff, intAt, Nat.add_assoc, hoffset, hbeam]

theorem mem_unitChecks_iff (u o : Nat) : (o, false) ∈ unitChecks plan u ↔
    (o = 0x2D0 + 4 * u ∧ ¬(1 ≤ leAt plan o 1 ∧ leAt plan o 1 ≤ 15)) ∨
      (o = 0x2D0 + 4 * u + 2 ∧ ¬(50 ≤ leAt plan o 2 ∧ leAt plan o 2 ≤ 5000)) := by
  unfold unitChecks
  rw [List.mem_cons, List.mem_singleton, Prod.mk.injEq, Prod.mk.injEq, eq_comm (a := false), eq_comm (a := false),
    within_eq_false_iff, within_eq_false_iff]
  refine or_congr (and_congr_right fun ho => ?_) (and_congr_right fun ho => ?_) <;>
  rw [ho]

theorem routingCheck_eq_iff (c o : Nat) : routingCheck plan c = (o, false) ↔
    o = 0x2E8 + 2 * c ∧ (1 < leAt plan o 1 ∨ 1 < leAt plan (o + 1) 1) := by
  unfold routingCheck
  rw [Prod.mk.injEq, eq_comm (a := _ + _)]
  refine and_congr_right fun ho => ?_
  rw [ho, Bool.and_eq_false_iff, within_eq_false_iff, within_eq_false_iff]
  omega

end

/-! ## Where the checks stand -/

/-- The checks of an entry of `size` bytes at `base`: their offsets lie in it and increase. -/
def CheckedAt (base size : Nat) (checks : List (Nat × Bool)) : Prop :=
  checks.Pairwise (fun c d => c.1 < d.1) ∧ ∀ c ∈ checks, base ≤ c.1 ∧ c.1 < base + size

section
variable {base size : Nat} {checks : List (Nat × Bool)}

theorem checkedAt_of_offsets {offsets : List Nat} (h : checks.map Prod.fst = offsets.map (base + ·))
    (hsorted : offsets.Pairwise (· < ·)) (hsize : ∀ n ∈ offsets, n < size) : CheckedAt base size checks := by
  constructor
  · rw [← List.pairwise_map (R := fun a b => a < b), h, List.pairwise_map]
    exact hsorted.imp fun hlt => Nat.add_lt_add_left hlt base
  · intro c hc
    have hfst : c.1 ∈ offsets.map (base + ·) := h ▸ List.mem_map_of_mem hc
    obtain ⟨n, hn, heq⟩ := List.mem_map.1 hfst
    have := hsize n hn
    omega

theorem checkedAt_append {size' : Nat} {checks' : List (Nat × Bool)} (h : CheckedAt base size checks)
    (h' : CheckedAt (base + size) size' checks') : CheckedAt base (size + size') (checks ++ checks') := by
  obtain ⟨hsorted, hin⟩ := h
  obtain ⟨hsorted', hin'⟩ := h'
  refine ⟨List.pairwise_append.2 ⟨hsorted, hsorted', fun c hc d hd => (hin c hc).2.trans_le (hin' d hd).1⟩,
    fun c hc => ?_⟩
  rcases List.mem_append.1 hc with hc | hc
  · have := hin c hc
    omega
  · have := hin' c hc
    omega

theorem checkedAt_flatMap {entry : Nat → List (Nat × Bool)} (h : ∀ i, CheckedAt (base + size * i) size (entry i)) :
    ∀ n, CheckedAt base (size * n) ((List.range n).flatMap entry)
  | 0 => ⟨List.Pairwise.nil, fun _ hc => absurd hc List.not_mem_nil⟩
  | n + 1 => by
    have hlast := checkedAt_append (checkedAt_flatMap h n) (h n)
    rwa [List.range_succ, List.flatMap_append, List.flatMap_singleton]

end

/-- The failing checks of equal entries one after the other, each by its entry and its place in it. -/
theorem mem_flatMap_iff {base size : Nat} {entry : Nat → List (Nat × Bool)} {bad : Nat → Nat → Prop}
    (hat : ∀ i, CheckedAt (base + size * i) size (entry i))
    (hmem : ∀ i pos, (base + size * i + pos, false) ∈ entry i ↔ bad i pos) (n o : Nat) :
    (o, false) ∈ (List.range n).flatMap entry ↔ ∃ i pos, i < n ∧ o = base + size * i + pos ∧ bad i pos := by
  rw [List.mem_flatMap]
  constructor
  · rintro ⟨i, hi, ho⟩
    obtain ⟨pos, rfl⟩ := Nat.exists_eq_add_of_le ((hat i).2 _ ho).1
    exact ⟨i, pos, List.mem_range.1 hi, rfl, (hmem i pos).1 ho⟩
  · rintro ⟨i, pos, hi, rfl, hbad⟩
    exact ⟨i, List.mem_range.2 hi, (hmem i pos).2 hbad⟩

section
variable (plan : List Byte)

theorem trackChecks_at (t : Nat) : CheckedAt (0x010 + 16 * t) 16 (trackChecks plan t) := by
  by_cases hdisabled : (leAt plan (0x010 + 16 * t + 0) 1 == 0) = true
  · have hchecks : (trackChecks plan t).map Prod.fst = [0].map (0x010 + 16 * t + ·) :=
      congrArg (fun l : List (Nat × Bool) => (0x010 + 16 * t) :: l.map Prod.fst) (if_pos hdisabled)
    exact checkedAt_of_offsets hchecks (by decide) (by decide)
  · have hchecks : (trackChecks plan t).map Prod.fst = [0, 1, 2, 3, 4, 6, 8, 10, 12, 13, 14].map (0x010 + 16 * t + ·) :=
      congrArg (fun l : List (Nat × Bool) => (0x010 + 16 * t) :: l.map Prod.fst) (if_neg hdisabled)
    exact checkedAt_of_offsets hchecks (by decide) (by decide)

theorem stationChecks_at (st : Nat) : CheckedAt (0x050 + 80 * st) 80 (stationChecks plan st) :=
  checkedAt_of_offsets
    (offsets := [0, 1, 2, 3, 4, 8, 10, 12, 13, 14, 16, 18, 20, 22, 24, 26] ++ (List.range 24).map fun i => 32 + 2 * i)
    rfl (by decide) (by decide)

theorem unitChecks_at (u : Nat) : CheckedAt (0x2D0 + 4 * u) 4 (unitChecks plan u) :=
  checkedAt_of_offsets (offsets := [0, 2]) rfl (by decide) (by decide)

theorem routingCheck_at (c : Nat) : CheckedAt (0x2E8 + 2 * c) 2 [routingCheck plan c] :=
  checkedAt_of_offsets (offsets := [0]) rfl (by decide) (by decide)

theorem planChecks_sorted : (planChecks plan).Pairwise fun c d => c.1 < d.1 := by
  have hhead : CheckedAt 0 0x010 [(2, within 2 64 (leAt plan 2 1)), (4, within 50 3000 (leAt plan 4 2)),
      (6, within (leAt plan 4 2) 3000 (leAt plan 6 2))] :=
    checkedAt_of_offsets (offsets := [2, 4, 6]) rfl (by decide) (by decide)
  have htracks := checkedAt_append hhead (checkedAt_flatMap (trackChecks_at plan) 4)
  have hstations := checkedAt_append htracks (checkedAt_flatMap (stationChecks_at plan) 8)
  have hunits := checkedAt_append hstations (checkedAt_flatMap (unitChecks_at plan) 6)
  have hrouting := checkedAt_append hunits (checkedAt_flatMap (routingCheck_at plan) (min (leAt plan 2 1) 64))
  rw [← List.map_eq_flatMap] at hrouting
  exact hrouting.1

theorem mem_planChecks_iff (o : Nat) : (o, false) ∈ planChecks plan ↔ fieldBad plan o := by
  have htracks := mem_flatMap_iff (trackChecks_at plan) (mem_trackChecks_iff plan) 4 o
  have hstations := mem_flatMap_iff (stationChecks_at plan) (mem_stationChecks_iff plan) 8 o
  unfold planChecks fieldBad
  simp only [List.mem_append, htracks, hstations]
  simp [within_eq_false_iff, mem_unitChecks_iff, routingCheck_eq_iff, or_assoc, and_assoc]

/-- The field reported is the least of those out of range. -/
theorem firstBadField_eq_none_iff : firstBadField plan = none ↔ ∀ o, ¬fieldBad plan o := by
  simp only [← mem_planChecks_iff]
  exact find?_failing_eq_none_iff _

theorem firstBadField_eq_some_iff (o : Nat) :
    firstBadField plan = some o ↔ fieldBad plan o ∧ ∀ q, fieldBad plan q → o ≤ q := by
  simp only [← mem_planChecks_iff]
  exact find?_failing_eq_some_iff o _ (planChecks_sorted plan)

end

end Sys2Proof.Machine
end

section
/-! PROOFS. An accepted plan (R20, R71, R98, R99, R132, R184): every track, station, port and unit takes its entry, each from
its own fields. -/

namespace Sys2Proof.Machine

open Sys2Proof

/-! ## Folds over a table and over the bits of a mask -/

/-- A table after the updates of the indices of a list, one after the other. -/
def setEach {α : Type} {n : Nat} (f : Fin n → α → α) (l : List (Fin n)) (v : Vector α n) : Vector α n :=
  l.foldl (fun v (j : Fin n) => v.set j (f j v[j])) v

theorem getElem_setEach {α : Type} {n : Nat} (f : Fin n → α → α) (i : Fin n) : ∀ (l : List (Fin n)) (v : Vector α n),
    l.Nodup → (setEach f l v)[i] = if i ∈ l then f i v[i] else v[i]
  | [], _, _ => rfl
  | j :: l, v, h => by
    obtain ⟨hj, hl⟩ := List.nodup_cons.1 h
    refine (getElem_setEach f i l (v.set j (f j v[j])) hl).trans ?_
    by_cases hij : i = j
    · subst hij
      rw [if_neg hj, if_pos List.mem_cons_self]
      exact Vector.getElem_set_self i.isLt
    · have hother : (v.set j (f j v[j]))[i] = v[i] := Vector.getElem_set_ne j.isLt i.isLt fun h => hij (Fin.ext h.symm)
      rw [hother]
      simp only [List.mem_cons, hij, false_or]

theorem getLsbD_or_one_shiftLeft {w : Nat} (m : BitVec w) (j i : Fin w) :
    (m ||| (1#w <<< j.val)).getLsbD i.val = true ↔ m.getLsbD i.val = true ∨ j = i := by
  have hi := i.isLt
  rw [BitVec.getLsbD_or, Bool.or_eq_true, BitVec.getLsbD_shiftLeft, BitVec.getLsbD_one, Fin.ext_iff]
  have hbit : (decide (i.val < w) && !decide (i.val < j.val) && (decide (0 < w) && decide (i.val - j.val = 0))) = true ↔
      j.val = i.val := by
    simp only [Bool.and_eq_true, Bool.not_eq_true', decide_eq_true_eq, decide_eq_false_iff_not]
    omega
  exact or_congr_right hbit

theorem getLsbD_foldl_or {w : Nat} (p : Fin w → Bool) (i : Fin w) : ∀ (l : List (Fin w)) (m : BitVec w),
    ((l.foldl (fun m j => if p j then m ||| (1#w <<< j.val) else m) m).getLsbD i.val = true ↔
      m.getLsbD i.val = true ∨ i ∈ l ∧ p i = true)
  | [], m => by simp
  | j :: l, m => by
    rw [List.foldl_cons, getLsbD_foldl_or p i l]
    cases hp : p j
    · have hij : i = j → ¬p i = true := fun heq => by rw [heq, hp]; decide
      simp only [Bool.false_eq_true, if_false, List.mem_cons]
      tauto
    · have hij : j = i → p i = true := fun heq => heq ▸ hp
      simp only [if_true, getLsbD_or_one_shiftLeft, List.mem_cons, eq_comm (a := i)]
      tauto

/-! ## What each takes of a plan -/

section
variable (plan : List Byte)

/-- A track by its new entry. -/
def plannedTrack (t : TrackId) (u : TrackUnit) : TrackUnit := { u.drop with plan := trackPlanOf plan t }

/-- A port by a new plan. -/
def configuredPort (x : Port) : Port := { x with configured := true, silent := 0 }

/-- A station by its new entry, at the gantry time `now`. -/
def plannedStation (now : Time) (st : StationId) : Station :=
  if (stationPlanOf plan st).restS = 0 then
    { plan := some (stationPlanOf plan st), state := .waking, restTimer := none
      wakeTimer := some (plusUs now ((stationPlanOf plan st).wakeMs * 1000)), run := none, marks := [] }
  else { plan := some (stationPlanOf plan st), state := .resting, restTimer := none, wakeTimer := none, run := none, marks := [] }

/-- The command a station is sent by its new entry. -/
def plannedCommand (st : StationId) : Output :=
  if (stationPlanOf plan st).restS = 0 then .wake st else .standby st

/-- A unit by its new entry, with the stations of a state. -/
def plannedUnit (s : State) (u : UnitId) : StrobeUnit :=
  let fresh : StrobeUnit := { StrobeUnit.reset with
    litTracks := litTracksOf plan u, rechargeMs := rechargeOf plan u, reach := glareReach (litTracksOf plan u)
    users := userStations u s }
  if someUserWaking (userStations u s) s then fresh.charge s.gantryTime else fresh.rest

theorem planStation_eq (st : StationId) (s : State) : planStation plan s st = { s with
    ports := s.ports.set st (configuredPort s.ports[st])
    stations := s.stations.set st (plannedStation plan s.gantryTime st)
    outputs := s.outputs ++ [plannedCommand plan st] } := by
  unfold planStation plannedStation plannedCommand
  by_cases hrest : (stationPlanOf plan st).restS = 0
  · rw [if_pos hrest, if_pos hrest, if_pos hrest, enterWaking_eq]
    simp [modStation, modPort, configuredPort]
  · rw [if_neg hrest, if_neg hrest, if_neg hrest]
    simp [enterResting, emit, modStation, modPort, configuredPort]

theorem foldl_planTrack : ∀ (l : List TrackId) (s : State), l.foldl (planTrack plan) s = { s with
    tracks := setEach (plannedTrack plan) l s.tracks }
  | [], _ => rfl
  | t :: l, s => foldl_planTrack l (planTrack plan s t)

theorem foldl_planStation : ∀ (l : List StationId) (s : State), l.foldl (planStation plan) s = { s with
    ports := setEach (fun _ => configuredPort) l s.ports
    stations := setEach (fun st _ => plannedStation plan s.gantryTime st) l s.stations
    outputs := s.outputs ++ l.map (plannedCommand plan) }
  | [], s => by simp [setEach]
  | st :: l, s => by
    rw [List.foldl_cons, planStation_eq, foldl_planStation l]
    simp [setEach]

theorem foldl_planUnit : ∀ (l : List UnitId) (s : State), l.foldl (planUnit plan) s = { s with
    units := setEach (fun u _ => plannedUnit plan s u) l s.units }
  | [], _ => rfl
  | u :: l, s => foldl_planUnit l (planUnit plan s u)

/-- An accepted plan, table by table: the units take theirs by the stations the plan leaves. -/
theorem acceptPlan_eq (s : State) :
    let stations := setEach (fun st _ => plannedStation plan s.gantryTime st) allStations s.stations
    acceptPlan plan s = { s with
      tracks := setEach (plannedTrack plan) allTracks s.tracks, stations := stations
      ports := setEach (fun _ => configuredPort) allStations s.ports
      units := setEach (fun u _ => plannedUnit plan { s with stations := stations } u) allUnits s.units
      headMin := leAt plan 4 2, headMax := leAt plan 6 2, routingLimit := leAt plan 2 1, routing := routingOf plan
      device := .ready, outputs := s.outputs ++ allStations.map (plannedCommand plan) } := by
  intro stations
  simp only [acceptPlan, foldl_planTrack, foldl_planStation, foldl_planUnit]
  rfl

/-! ## What a unit comes to (R98, R99) -/

theorem isNeighbour_iff (a b : Nat) : isNeighbour a b = true ↔ a + 1 = b ∨ b + 1 = a := by simp [isNeighbour]

theorem getLsbD_glareReach (lit : BitVec 4) (i : TrackId) : (glareReach lit).getLsbD i.val = true ↔
    ∃ j : TrackId, lit.getLsbD j.val = true ∧ (j = i ∨ j.val + 1 = i.val ∨ i.val + 1 = j.val) := by
  refine (getLsbD_foldl_or _ i allTracks 0).trans ?_
  have hall (j : TrackId) : j ∈ allTracks := mem_allTracks j
  simp [hall, isNeighbour_iff]

variable {s : State} (hplan : ∀ st : StationId, s.stations[st] = plannedStation plan s.gantryTime st)

theorem plannedStation_plan (now : Time) (st : StationId) :
    (plannedStation plan now st).plan = some (stationPlanOf plan st) := by
  unfold plannedStation
  split <;> rfl

theorem plannedStation_waking_iff (now : Time) (st : StationId) :
    (plannedStation plan now st).state = .waking ↔ (stationPlanOf plan st).restS = 0 := by
  unfold plannedStation
  split <;> simp [*]

include hplan

theorem getLsbD_userStations (u : UnitId) (st : StationId) : (userStations u s).getLsbD st.val = true ↔
    (stationPlanOf plan st).strobeMask.getLsbD u.val = true := by
  have hfold : userStations u s = allStations.foldl (fun m st =>
      if (stationPlanOf plan st).strobeMask.getLsbD u.val then m ||| (1#8 <<< st.val) else m) 0 := by
    refine congrArg (fun f => List.foldl f (0 : BitVec 8) allStations) (funext fun m => funext fun st => ?_)
    have h : s.stations[st].plan = some (stationPlanOf plan st) := by rw [hplan st, plannedStation_plan]
    rw [h]
    rfl
  rw [hfold, getLsbD_foldl_or]
  simp [mem_allStations]

theorem someUserWaking_iff (u : UnitId) : someUserWaking (userStations u s) s = true ↔
    ∃ st : StationId, (stationPlanOf plan st).strobeMask.getLsbD u.val = true ∧ ¬(stationPlanOf plan st).restS ≠ 0 := by
  simp only [someUserWaking, List.any_eq_true, Bool.and_eq_true, beq_iff_eq, getLsbD_userStations plan hplan, hplan,
    plannedStation_waking_iff, mem_allStations, true_and, not_not]

end

end Sys2Proof.Machine
end

section
/-! PROOFS. O60: the completions of the reads that orders wait on, the fields of a site plan and what an accepted plan puts
into the state. -/

namespace Sys2Proof.Machine

open Sys2Proof

/-! ## The fields of a plan by their bytes (11.10) -/

theorem leAt_lt (bytes : List Byte) : ∀ n pos : Nat, leAt bytes pos n < 256 ^ n
  | 0, _ => Nat.one_pos
  | n + 1, pos => by
    have hbyte := (bytes.getD pos 0).isLt
    have hrest := leAt_lt bytes n (pos + 1)
    rw [leAt, Nat.pow_succ]
    omega

theorem map_val_programOfByte {n : Nat} (h : n < 256) :
    (programOfByte (BitVec.ofNat 8 n)).map Fin.val = if n < 16 then some n else none := by
  have hbyte : (BitVec.ofNat 8 n).toNat = n := Nat.mod_eq_of_lt h
  unfold programOfByte
  rw [hbyte]
  split <;> rfl

theorem intAt_eq (bytes : List Byte) (pos : Nat) : intAt bytes pos =
    if leAt bytes pos 4 < 2 ^ 31 then (leAt bytes pos 4 : Int) else (leAt bytes pos 4 : Int) - 2 ^ 32 := by
  have hword : (BitVec.ofNat 32 (leAt bytes pos 4)).toNat = leAt bytes pos 4 :=
    Nat.mod_eq_of_lt (leAt_lt bytes 4 pos)
  unfold intAt
  rw [BitVec.toInt_eq_toNat_cond, hword]
  split <;> split <;> omega

theorem getLsbD_zero_ofNat (n : Nat) : (BitVec.ofNat 8 n).getLsbD 0 = true ↔ n % 2 = 1 := by
  rw [BitVec.getLsbD_ofNat, Nat.testBit_zero]
  simp

theorem getLsbD_one_ofNat (n : Nat) : (BitVec.ofNat 8 n).getLsbD 1 = true ↔ n / 2 % 2 = 1 := by
  rw [BitVec.getLsbD_ofNat, Nat.testBit_succ, Nat.testBit_zero]
  simp

theorem getElem?_map_range {α : Type} (f : Nat → α) {i n : Nat} (h : i < n) : ((List.range n).map f)[i]? = some (f i) := by
  simp [h]

/-! ## A unit of an accepted plan -/

section
variable {plan : List Byte} {s : State} {u : UnitId}

theorem plannedUnit_of_waking (h : someUserWaking (userStations u s) s = true) : plannedUnit plan s u =
    { state := .charging, litTracks := litTracksOf plan u, rechargeMs := rechargeOf plan u
      reach := glareReach (litTracksOf plan u), users := userStations u s
      rechargeTimer := some (plusUs s.gantryTime (rechargeOf plan u * 1000)), firing := none, pulseEnd := none
      fireLine := false, supply := true } := if_pos h

theorem plannedUnit_of_resting (h : ¬someUserWaking (userStations u s) s = true) : plannedUnit plan s u =
    { state := .resting, litTracks := litTracksOf plan u, rechargeMs := rechargeOf plan u
      reach := glareReach (litTracksOf plan u), users := userStations u s, rechargeTimer := none, firing := none
      pulseEnd := none, fireLine := false, supply := false } := if_neg h

end

/-! ## An accepted plan by its tables -/

section
variable (plan : List Byte) (s : State)

/-- The stations an accepted plan leaves. -/
def plannedStations : Vector Station 8 :=
  setEach (fun st _ => plannedStation plan s.gantryTime st) allStations s.stations

theorem getElem_plannedStations (st : StationId) :
    (plannedStations plan s)[st] = plannedStation plan s.gantryTime st :=
  (getElem_setEach _ st allStations s.stations (by decide)).trans (if_pos (mem_allStations st))

theorem acceptPlan_tracks_eq : (acceptPlan plan s).tracks = setEach (plannedTrack plan) allTracks s.tracks :=
  congrArg State.tracks (acceptPlan_eq plan s)

theorem acceptPlan_ports_eq : (acceptPlan plan s).ports = setEach (fun _ => configuredPort) allStations s.ports :=
  congrArg State.ports (acceptPlan_eq plan s)

theorem acceptPlan_stations_eq : (acceptPlan plan s).stations = plannedStations plan s :=
  congrArg State.stations (acceptPlan_eq plan s)

theorem acceptPlan_units_eq : (acceptPlan plan s).units =
    setEach (fun u _ => plannedUnit plan { s with stations := plannedStations plan s } u) allUnits s.units :=
  congrArg State.units (acceptPlan_eq plan s)

theorem acceptPlan_routing : (acceptPlan plan s).routing = routingOf plan :=
  congrArg State.routing (acceptPlan_eq plan s)

theorem acceptPlan_frame : acceptPlan plan s = { s with
    tracks := (acceptPlan plan s).tracks, stations := (acceptPlan plan s).stations, ports := (acceptPlan plan s).ports
    units := (acceptPlan plan s).units, headMin := leAt plan 4 2, headMax := leAt plan 6 2
    routingLimit := leAt plan 2 1, routing := (acceptPlan plan s).routing, device := .ready
    outputs := s.outputs ++ allStations.map (plannedCommand plan) } := by
  rw [acceptPlan_tracks_eq, acceptPlan_stations_eq, acceptPlan_ports_eq, acceptPlan_units_eq, acceptPlan_routing]
  exact acceptPlan_eq plan s

theorem acceptPlan_tracks (i : TrackId) :
    (acceptPlan plan s).tracks[i] = { s.tracks[i].drop with plan := trackPlanOf plan i } := by
  rw [acceptPlan_tracks_eq, getElem_setEach _ i _ _ (by decide), if_pos (mem_allTracks i), plannedTrack]

theorem acceptPlan_ports (st : StationId) :
    (acceptPlan plan s).ports[st] = { s.ports[st] with configured := true, silent := 0 } := by
  rw [acceptPlan_ports_eq, getElem_setEach _ st _ _ (by decide), if_pos (mem_allStations st), configuredPort]

theorem acceptPlan_stations (st : StationId) :
    (acceptPlan plan s).stations[st] = plannedStation plan s.gantryTime st := by
  rw [acceptPlan_stations_eq, getElem_plannedStations]

theorem acceptPlan_units (u : UnitId) :
    (acceptPlan plan s).units[u] = plannedUnit plan { s with stations := plannedStations plan s } u := by
  rw [acceptPlan_units_eq, getElem_setEach _ u _ _ (by decide), if_pos (mem_allUnits u)]

end

section
variable {plan : List Byte} {s : State} {st : StationId}

theorem plannedStation_of_resting {now : Time} (h : (stationPlanOf plan st).restS ≠ 0) : plannedStation plan now st =
    { plan := some (stationPlanOf plan st), state := .resting, restTimer := none, wakeTimer := none, run := none
      marks := [] } := if_neg h

theorem plannedStation_of_waking {now : Time} (h : ¬(stationPlanOf plan st).restS ≠ 0) : plannedStation plan now st =
    { plan := some (stationPlanOf plan st), state := .waking, restTimer := none
      wakeTimer := some (plusUs now ((stationPlanOf plan st).wakeMs * 1000)), run := none, marks := [] } :=
  if_pos (not_not.1 h)

end

theorem length_routingOf (plan : List Byte) : (routingOf plan).length = min (leAt plan 2 1) 64 := by simp [routingOf]

/-- A unit of a state whose stations have taken the plan (R98, R99). -/
theorem plannedUnit_spec {plan : List Byte} {s : State}
    (hplan : ∀ st : StationId, s.stations[st] = plannedStation plan s.gantryTime st) (u : UnitId) :
    let x := plannedUnit plan s u
    let lit : BitVec 4 := BitVec.ofNat 4 (leAt plan (0x2D0 + 4 * u.val) 1)
    let limit := leAt plan (0x2D0 + 4 * u.val + 2) 2
    let uses (st : StationId) : Prop := (stationPlanOf plan st).strobeMask.getLsbD u.val = true
    let rests (st : StationId) : Prop := (stationPlanOf plan st).restS ≠ 0
    x.litTracks = lit ∧ x.rechargeMs = limit ∧ x.firing = none ∧ x.pulseEnd = none ∧ x.fireLine = false ∧
    (∀ st : StationId, x.users.getLsbD st.val = true ↔ uses st) ∧
    (∀ i : TrackId, x.reach.getLsbD i.val = true ↔
      ∃ j : TrackId, lit.getLsbD j.val = true ∧ (j = i ∨ j.val + 1 = i.val ∨ i.val + 1 = j.val)) ∧
    ((∃ st, uses st ∧ ¬rests st) → x.state = .charging ∧ x.supply = true ∧
      x.rechargeTimer = some (plusUs s.gantryTime (limit * 1000))) ∧
    ((∀ st, uses st → rests st) → x.state = .resting ∧ x.supply = false ∧ x.rechargeTimer = none) := by
  intro x lit limit uses rests
  have hwaking : someUserWaking (userStations u s) s = true ↔ ∃ st, uses st ∧ ¬rests st := someUserWaking_iff plan hplan u
  have husers := getLsbD_userStations plan hplan u
  have hreach := getLsbD_glareReach lit
  by_cases h : someUserWaking (userStations u s) s = true
  · have hx : x = _ := plannedUnit_of_waking h
    obtain ⟨st, huses, hwakes⟩ := hwaking.1 h
    rw [hx]
    exact ⟨rfl, rfl, rfl, rfl, rfl, husers, hreach, fun _ => ⟨rfl, rfl, rfl⟩, fun hall => absurd (hall st huses) hwakes⟩
  · have hx : x = _ := plannedUnit_of_resting h
    rw [hx]
    exact ⟨rfl, rfl, rfl, rfl, rfl, husers, hreach, fun hsome => absurd (hwaking.2 hsome) h, fun _ => ⟨rfl, rfl, rfl⟩⟩

/-! ## The three completions -/

section
variable {m : Moment} {slot : SlotId} {a : Addr} {s : State} (hlive : (taken m s).device ≠ .failed)
include hlive

theorem planReads (hexecuting : (taken m s).engine.executing = some (slot, .plan a)) :
    let b := taken m s
    let k := { b with engine := { b.engine with executing := none } }
    let ends (res : OrderResult) (k : State) : Host.Outcome State Fault Refusal :=
      let t := writeFinish slot res k
      .next (conclude (continueScan slot (if t.device = .failed then t else settle t)))
    let loadable := b.device = .dormant ∨ b.device = .ready
    exec (.planReadCompletion m none) s = ends (.refused .readError []) k ∧
      ∀ plan : List Byte,
        let run := exec (.planReadCompletion m (some plan)) s
        let summed := ((List.range 436).map fun i => leAt plan (2 * i) 2).sum % 65536 = 0
        (¬loadable → run = ends (.refused .wrongState []) k) ∧
        (loadable → ¬summed → run = ends (.refused .planCheck []) k) ∧
        (∀ offset, loadable → summed → firstBadField plan = some offset →
          run = ends (.refused .badArgument (le 4 offset)) k) ∧
        (loadable → summed → firstBadField plan = none → run = ends (.ok []) (acceptPlan plan k)) := by
  intro b k ends loadable
  refine ⟨planReadCompletion_of_waiting hlive hexecuting rfl, fun plan => ⟨fun hload => ?_, fun hload hsum => ?_,
    fun offset hload hsum hbad => ?_, fun hload hsum hgood => ?_⟩⟩
  · exact planReadCompletion_of_waiting hlive hexecuting (finishPlan_of_unloadable (s := k) hload)
  · exact planReadCompletion_of_waiting hlive hexecuting (finishPlan_of_bad_sum (s := k) hload hsum)
  · exact planReadCompletion_of_waiting hlive hexecuting (finishPlan_of_bad_field (s := k) hload hsum hbad)
  · exact planReadCompletion_of_waiting hlive hexecuting (finishPlan_of_good (s := k) hload hsum hgood)

theorem programTableReads {mask : BitVec 16} (hexecuting : (taken m s).engine.executing = some (slot, .programs mask a)) :
    let b := taken m s
    let k := { b with engine := { b.engine with executing := none } }
    let ends (res : OrderResult) (k : State) : Host.Outcome State Fault Refusal :=
      let t := writeFinish slot res k
      .next (conclude (continueScan slot (if t.device = .failed then t else settle t)))
    let loadable := b.device = .dormant ∨ b.device = .ready
    exec (.programTableReadCompletion m none) s = ends (.refused .readError []) k ∧
      ∀ table : List Byte,
        let run := exec (.programTableReadCompletion m (some table)) s
        (¬loadable → run = ends (.refused .wrongState []) k) ∧
        (∀ p i f, loadable → programsOf table mask allPrograms = .error (p, i, f) →
          run = ends (.refused .badArgument [byteOf p, byteOf i, byteOf f.code]) k) ∧
        (∀ programs, loadable → programsOf table mask allPrograms = .ok programs →
          run = ends (.ok (le 2 mask.toNat)) (loadAll programs k)) := by
  intro b k ends loadable
  refine ⟨programTableReadCompletion_of_waiting hlive hexecuting rfl, fun table => ⟨fun hload => ?_,
    fun p i f hload hbad => ?_, fun programs hload hgood => ?_⟩⟩
  · exact programTableReadCompletion_of_waiting hlive hexecuting (finishPrograms_of_unloadable (s := k) hload)
  · exact programTableReadCompletion_of_waiting hlive hexecuting (finishPrograms_of_bad_step (s := k) hload hbad)
  · exact programTableReadCompletion_of_waiting hlive hexecuting (finishPrograms_of_good (s := k) hload hgood)

omit hlive in
theorem listComplete_of_length {n : Nat} {list : List Addr} (h : list.length = n) : listComplete n (some list) = true :=
  beq_iff_eq.2 h

theorem addressListReads {n : Nat} (hexecuting : (taken m s).engine.executing = some (slot, .addresses n a)) :
    let b := taken m s
    let k := { b with engine := { b.engine with executing := none } }
    let ends (res : OrderResult) (k : State) : Host.Outcome State Fault Refusal :=
      let t := writeFinish slot res k
      .next (conclude (continueScan slot (if t.device = .failed then t else settle t)))
    exec (.addressListReadCompletion m none) s = ends (.refused .readError []) k ∧
      ∀ list : List Addr,
        let run := exec (.addressListReadCompletion m (some list)) s
        let q := withdrawAll list b.mover
        let codes := entryBytes q.2
        (list.length ≠ n → run = .next (conclude b)) ∧
        (list.length = n → 0 ∈ list → run = ends (.refused .badArgument []) k) ∧
        (list.length = n → 0 ∉ list → (∀ r ∈ q.2, r = .added ∨ r = .already) →
          run = ends (.ok codes) { k with mover := q.1 }) ∧
        (list.length = n → 0 ∉ list → (∃ r ∈ q.2, r = .busy ∨ r = .full) →
          run = ends (.refused .partialResult codes) { k with mover := q.1 }) := by
  intro b k ends
  refine ⟨addressListReadCompletion_of_waiting hlive hexecuting rfl rfl, fun list => ⟨fun hlength => ?_,
    fun hlength hzero => ?_, fun hlength hzero hall => ?_, fun hlength hzero hsome => ?_⟩⟩
  · exact addressListReadCompletion_of_other_length hlive hexecuting hlength
  · exact addressListReadCompletion_of_waiting hlive hexecuting (listComplete_of_length hlength)
      (finishWithdraw_of_zero (s := k) hzero)
  · exact addressListReadCompletion_of_waiting hlive hexecuting (listComplete_of_length hlength)
      (finishWithdraw_of_good (s := k) hzero hall)
  · exact addressListReadCompletion_of_waiting hlive hexecuting (listComplete_of_length hlength)
      (finishWithdraw_of_partial (s := k) hzero hsome)

end

/-- Settles O60: each completion by the checks of its order; the plan checks stand in the order of their offsets, so that the
first failing one is the least; an accepted plan table by table (`acceptPlan_eq`). -/
theorem orderReads : Obligations.OrderReads := by
  refine ⟨?completions, ?withdraw, fun plan => ⟨firstBadField_eq_none_iff plan, firstBadField_eq_some_iff plan⟩, ?accepted,
    fun _ _ => rfl, ?station, stepFailure_codes⟩
  case completions =>
    intro m slot a s b k ends loadable hlive
    refine ⟨fun hplan => planReads hlive hplan, fun mask hprograms => programTableReads hlive hprograms,
      fun n haddresses => addressListReads hlive haddresses,
      fun hnone plan table list => readCompletions_of_none hlive hnone plan table list⟩
  case withdraw =>
    intro a rest m busy keeps
    have hbusy : busyCard a m = true ↔ busy := busyCard_iff a m
    refine ⟨fun h => ?_, fun h hlisted => ?_, fun h hlisted hfull => ?_, fun h hlisted hroom => ?_⟩
    · exact withdrawAll_of_kept rest (entryResult_of_busy (hbusy.2 h)) (by decide)
    · exact withdrawAll_of_kept rest (entryResult_of_listed (mt hbusy.1 h) hlisted) (by decide)
    · exact withdrawAll_of_kept rest ((entryResult_of_unlisted (mt hbusy.1 h) hlisted).trans (if_pos hfull)) (by decide)
    · exact withdrawAll_of_added rest
        ((entryResult_of_unlisted (mt hbusy.1 h) hlisted).trans (if_neg (Nat.not_le.2 hroom)))
  case accepted =>
    intro plan s t rests
    have hrouting : t.routing = routingOf plan := acceptPlan_routing plan s
    refine ⟨?frame, acceptPlan_tracks plan s, fun st => ⟨acceptPlan_ports plan s st, fun hrests => ?_, fun hwakes => ?_⟩,
      fun u => ?_, ?_, fun c hc hlimit => ?_⟩
    case frame => exact acceptPlan_frame plan s
    · exact (acceptPlan_stations plan s st).trans (plannedStation_of_resting hrests)
    · exact (acceptPlan_stations plan s st).trans (plannedStation_of_waking hwakes)
    · have hunit : t.units[u] = _ := acceptPlan_units plan s u
      rw [hunit]
      exact plannedUnit_spec (s := { s with stations := plannedStations plan s }) (getElem_plannedStations plan s) u
    · rw [hrouting, length_routingOf]
    · rw [hrouting]
      exact getElem?_map_range _ (lt_min hlimit hc)
  case station =>
    intro plan st at_ p program
    have heights (beam : Nat) (h : beam < 24) : p.heights[beam]? = some (at_ (32 + 2 * beam) 2) := getElem?_map_range _ h
    exact ⟨rfl, getLsbD_zero_ofNat _, getLsbD_one_ofNat _, map_val_programOfByte (leAt_lt plan 1 _),
      map_val_programOfByte (leAt_lt plan 1 _), intAt_eq plan _, rfl, rfl, rfl, rfl, rfl, rfl, rfl, rfl, rfl, rfl, rfl,
      rfl, heights⟩

end Sys2Proof.Machine
end
